-- ==== Sys2Proof/Word.lean ====
section
/-! DEFINITION. The words of the TD440's interfaces: bytes, part-clock values, intervals between them, and the
list form of the part's addressed tables. -/

namespace Sys2Proof

/-- A byte of host memory or of a trackside frame. -/
abbrev Byte := BitVec 8

/-- A part-clock value: a 32-bit count of milliseconds (00, Terms). -/
abbrev Time := BitVec 32

/-- An interval: the difference of two part-clock values modulo 2^32, in ms (00, "Time arithmetic"). -/
def elapsed (now start : Time) : Nat := (now - start).toNat

/-- An addressed table of the part: pairs of an index and an entry, indexes rising, an entry that equals the
table's empty form left out (01 R2 "empty form"). -/
abbrev Table (α : Type) := List (Nat × α)

/-- Bytes of host memory by address, in the same canonical form. -/
abbrev Memory := List Host.Cell

end Sys2Proof
end

