-- ==== Sys2Proof/Config.lean ====
section
/-! DEFINITION. What an implementation fixes: capacities and bounds of the spec, the bound on one step's internal
cascade, and the free values (opaque: no proof can see them). -/

namespace Sys2Proof.Config

/-- 00, "Numbering". -/
def vehicleCount : Nat := 256
def nodeCount : Nat := 2048
def segmentCount : Nat := 4096
def zoneCount : Nat := 1024
def mergeCount : Nat := 256
def bayCount : Nat := 64
def stationCount : Nat := 4096
def decodeCount : Nat := 64
/-- 01 R2: node number × 64 + destination bay. -/
def routeCount : Nat := 131072

/-- 01 R11. -/
def mapQueueLimit : Nat := 8
/-- 02 R38. -/
def patchLimit : Nat := 256
/-- 02 R27. -/
def walkLimit : Nat := 1024
/-- 05 R92, 06 R123. -/
def pathLimit : Nat := 32
/-- 10 R189. -/
def runLimit : Nat := 16
def runLength : Nat := 64
/-- 04 R84. -/
def restartLimit : Nat := 3
/-- Upper bound of ETAs and scores (00, "Ranges"). -/
def etaLimit : Nat := 16777215
/-- Upper bound of a traversal time (00, "Ranges"). -/
def timeLimit : Nat := 65535

/-- DESIGN CHOICE (safe, log 5): how many internal tasks one step takes before it hands what is left, which no
known cascade has, to the next command. -/
def cascadeBound : Nat := 100000

/-- Free value (log 8): how many bytes of a write in progress reach host memory when a reset abandons it. -/
opaque landedBytes : Nat → Nat

/-- Free value (log 14): the header bytes of a received frame too short to hold them. -/
opaque missingByte : Nat → Byte

/-- Free value (log 40): a byte of a window record's field that holds nothing (an absent timestamp, an absent
reason, the unused end of a path or of a carrier ID), by its offset in the record. -/
opaque fillByte : Nat → Byte

end Sys2Proof.Config
end

