-- ==== Sys2Proof/Syntax.lean ====
section
/-! DEFINITION. The commands of the block: one constructor of `Instr` for each row of spec/opcode_table.json, with
the operands the row's rule gives it. -/

namespace Sys2Proof

/-- What a DMA read returns when it completes: bytes, or a completion error (10 R185). -/
inductive ReadResult where
  | data (bytes : List Byte)
  | error
  deriving DecidableEq, Repr

/-- A record the part writes in the host window (10 R188, R195). -/
inductive WinRec where
  | slot (k : Nat)
  | vehicle (v : Nat)
  | zone (z : Nat)
  | shelf (st : Nat)
  | status
  deriving DecidableEq, Repr

/-- The operands of a MOVE as a slot carries them (03 R44, 10 Formats). -/
structure MoveOps where
  cls : Nat
  srcKind : Nat
  dstKind : Nat
  idLength : Nat
  srcValue : Nat
  dstValue : Nat
  carrier : List Byte
  deriving DecidableEq, Repr

/-- The commands. `slot` and `tag` are the number and the host tag of the slot that holds an order (log 3). In the
frame commands `early` says that the frame's reception began before LINK_HOLD was last cleared (08 R168, R169; log 13);
`held` is the held limit as the frame carries it, 65,535 being NONE (10, Trackside frames). -/
inductive Instr where
  | coldReset (powerOn : Bool)
  | warmReset (w : BitVec 64)
  | start (w : BitVec 64)
  | startHeaderReadDone (r : ReadResult)
  | linkHoldSet (w : BitVec 64)
  | linkHoldClear (w : BitVec 64)
  | manualEnable (w : BitVec 64)
  | ce (w : BitVec 64)
  | cl (w : BitVec 64)
  | post (w : BitVec 64)
  | holdRead
  | holdClear (w : BitVec 64)
  | causeClear (w : BitVec 64)
  | enableWrite (w : BitVec 64)
  | registerWrite (offset : Nat) (w : BitVec 64)
  | windowWriteDone (r : WinRec) (ok : Bool)
  | slotReadStart
  | slotReadDone (r : ReadResult)
  | move (slot : Nat) (tag : BitVec 32) (m : MoveOps)
  | mapOpen (slot : Nat) (tag : BitVec 32)
  | mapLoad (slot : Nat) (tag : BitVec 32) (sec first count offset : Nat)
  | mapLoadEntryReadDone (r : ReadResult)
  | mapCommit (slot : Nat) (tag : BitVec 32)
  | mapCommitValidationDone
  | routePatch (slot : Nat) (tag : BitVec 32) (count offset : Nat)
  | routePatchEntryReadDone (r : ReadResult)
  | routePatchCheckDone
  | fleetOpen (slot : Nat) (tag : BitVec 32)
  | admitVehicle (slot : Nat) (tag : BitVec 32) (v pool seg : Nat)
  | retire (slot : Nat) (tag : BitVec 32) (v : Nat)
  | locate (slot : Nat) (tag : BitVec 32) (v seg : Nat)
  | release (slot : Nat) (tag : BitVec 32) (v : Nat)
  | jog (slot : Nat) (tag : BitVec 32) (v node : Nat)
  | poolPolicy (slot : Nat) (tag : BitVec 32) (bay marks reserve : Nat)
  | zoneClose (slot : Nat) (tag : BitVec 32) (z : Nat)
  | zoneOpen (slot : Nat) (tag : BitVec 32) (z : Nat)
  | stationState (slot : Nat) (tag : BitVec 32) (st state : Nat)
  | evaluationStart
  | scoreStep
  | evaluationCompletion
  | agingPeriodExpiry
  | pass (addr node held : Nat) (early : Bool)
  | arrive (addr node held : Nat) (early : Bool)
  | hoistReply (addr tag answer : Nat) (early : Bool)
  | hoistEnd (addr tag outcome : Nat) (id : List Byte) (early : Bool)
  | status (addr cond code load held : Nat) (early : Bool)
  | scan (addr seq first : Nat) (last : Bool) (rows : List Nat) (early : Bool)
  | busyRetryExpiry (v : Nat)
  | busyLimitExpiry (v : Nat)
  | endLimitExpiry (v : Nat)
  | stallLimitExpiry (z v : Nat)
  | convoyExpiry (m : Nat)
  | transmitStart
  | grantSent
  | hoistSent
  | standSent
  | replyWaitExpiry (v : Nat)
  | silenceExpiry (v : Nat)
  | rackSilenceExpiry (bay : Nat)
  | discardedFrame (bytes : List Byte) (early : Bool)
  deriving DecidableEq, Repr

end Sys2Proof
end

