-- ==== Sys2Proof/WellFormed.lean ====
section
/-! DEFINITION. Which commands the interfaces can carry: each operand within the width of its field (10, Formats).
Every meaning is total and answers for the others too; a field that can hold a value above its range lets it be
written, and the rule that reads it refuses or clamps it. -/

namespace Sys2Proof

/-- A read of `n` bytes returns `n` bytes. -/
def ReadResult.wf (n : Nat) : ReadResult → Bool
  | .data bs => bs.length == n
  | .error => true

/-- Each field of a MOVE fits the slot's layout. -/
def MoveOps.wf (m : MoveOps) : Bool :=
  decide (m.cls < 256) && decide (m.srcKind < 256) && decide (m.dstKind < 256) && decide (m.idLength < 256) &&
    decide (m.srcValue < 4294967296) && decide (m.dstValue < 4294967296) && m.carrier.length == 32

/-- The slot of an order is a number a POST can name. -/
def wfSlot (k : Nat) : Bool := decide (k < 1024)

/-- An address of the link (08 R152). -/
def wfAddr (a : Nat) : Bool := decide (a < 512)

/-- Each row's operands fit their fields. -/
def Instr.wf : Instr → Bool
  | .coldReset _ | .warmReset _ | .start _ | .linkHoldSet _ | .linkHoldClear _ | .manualEnable _ | .ce _ | .cl _ => true
  | .post _ | .holdRead | .holdClear _ | .causeClear _ | .enableWrite _ | .slotReadStart => true
  | .startHeaderReadDone r => r.wf 64
  | .registerWrite o _ => decide (o < 64) && o % 8 == 0
  | .windowWriteDone (.slot k) _ => wfSlot k
  | .windowWriteDone (.vehicle v) _ => decide (v < 256)
  | .windowWriteDone (.zone z) _ => decide (z < 1024)
  | .windowWriteDone (.shelf st) _ => decide (st < 4096)
  | .windowWriteDone .status _ => true
  | .slotReadDone r => r.wf 64
  | .move k _ m => wfSlot k && m.wf
  | .mapOpen k _ | .mapCommit k _ | .fleetOpen k _ => wfSlot k
  | .mapLoad k _ sec first count off =>
    wfSlot k && decide (sec < 256) && decide (first < 4294967296) && decide (count < 4294967296) && decide (off < 4294967296)
  | .mapLoadEntryReadDone r => r.wf 8 || r.wf 16 || r.wf 32
  | .mapCommitValidationDone | .routePatchCheckDone | .evaluationStart | .scoreStep | .evaluationCompletion => true
  | .agingPeriodExpiry | .transmitStart | .grantSent | .hoistSent | .standSent => true
  | .routePatch k _ count off => wfSlot k && decide (count < 4294967296) && decide (off < 4294967296)
  | .routePatchEntryReadDone r => r.wf 16
  | .admitVehicle k _ v pool seg => wfSlot k && decide (v < 65536) && decide (pool < 256) && decide (seg < 65536)
  | .retire k _ v | .release k _ v => wfSlot k && decide (v < 65536)
  | .locate k _ v seg => wfSlot k && decide (v < 65536) && decide (seg < 65536)
  | .jog k _ v node => wfSlot k && decide (v < 65536) && decide (node < 65536)
  | .poolPolicy k _ bay marks reserve => wfSlot k && decide (bay < 256) && decide (marks < 256) && decide (reserve < 256)
  | .zoneClose k _ z | .zoneOpen k _ z => wfSlot k && decide (z < 65536)
  | .stationState k _ st state => wfSlot k && decide (st < 65536) && decide (state < 256)
  | .pass a n h _ | .arrive a n h _ => wfAddr a && decide (n < 65536) && decide (h < 65536)
  | .hoistReply a tag ans _ => wfAddr a && decide (tag < 256) && decide (ans < 256)
  | .hoistEnd a tag out id _ => wfAddr a && decide (tag < 256) && decide (out < 256) && decide (id.length < 256)
  | .status a cond code load h _ =>
    wfAddr a && decide (cond < 256) && decide (code < 256) && decide (load < 256) && decide (h < 65536)
  | .scan a q first _ rows _ =>
    wfAddr a && decide (q < 256) && decide (first < 256) && decide (rows.length < 256) && rows.all (fun r => decide (r < 256))
  | .busyRetryExpiry v | .busyLimitExpiry v | .endLimitExpiry v | .replyWaitExpiry v | .silenceExpiry v => decide (v < 256)
  | .stallLimitExpiry z v => decide (z < 1024) && decide (v < 256)
  | .convoyExpiry m => decide (m < 256)
  | .rackSilenceExpiry b => decide (b < 64)
  | .discardedFrame bs _ => decide (bs.length ≤ 261)

end Sys2Proof
end

