-- ==== Sys2Proof/Machine/State.lean ====
section
/-! DEFINITION. The state of the TD440 as plain data: the state of its eleven blocks (00, "Blocks"), the part clock,
the queue of waiting commands, and what the part has sent out. A structure's default field values are the empty form
of its record. -/

namespace Sys2Proof.Machine

/-! ### Names -/

/-- 10, STATUS bits 1:0. -/
inductive Engine where
  | stopped | layoutFault | running
  deriving DecidableEq, Repr

/-- 10 R197: the five causes, in the order of their bits. -/
inductive Cause where
  | order | fleet | track | error | lane
  deriving DecidableEq, Repr

/-- A set of causes (registers CAUSE and ENABLE, and what a window write carries). -/
structure Causes where
  order : Bool := false
  fleet : Bool := false
  track : Bool := false
  error : Bool := false
  lane : Bool := false
  deriving DecidableEq, Repr

/-- 01 R1. -/
inductive MapPhase where
  | vacant | opened | committed
  deriving DecidableEq, Repr

/-- 05 R96. -/
inductive FleetPhase where
  | assembly | operating
  deriving DecidableEq, Repr

/-- 05 R93. -/
inductive VState where
  | offline | idle | parking | toSource | loading | toDest | unloading | holding | manual | faulted | lost
  deriving DecidableEq, Repr

/-- 05 R92, the fault code. -/
inductive FaultCode where
  | none_ | reported (n : Nat) | noReply | authStale | hoistJam | silence
  deriving DecidableEq, Repr

/-- 03, section 3.2. FINISHED is momentary and never held. -/
inductive OrderState where
  | pending | assigned | chained | picking | carrying | placing
  deriving DecidableEq, Repr

/-- 03 R64, the result code. -/
inductive ResultCode where
  | completed | refused | cancelled | failed
  deriving DecidableEq, Repr

/-- 10, Formats, the table of reasons. -/
inductive Reason where
  | mapNotCommitted | badOperand | unknownLocation | stationClosed | sameLocation | noBuffer | sourceBusy | destBusy
  | vehicleState | pickupEmpty | portNotReady | hoistRefused | hoistFault | vehicleFault | vehicleLost | idMismatch
  | destOccupied | mapBusy | mapState | mapInconsistent | ordersLive | loadFault | collisionRisk | bayFull
  | notQuarantined | manualDisabled | noRoute | closePending | fleetActive
  deriving DecidableEq, Repr

/-- 03 R64, the carrier place; `none_` for a directive. -/
inductive Place where
  | none_ | source | destination | vehicle | unknown
  deriving DecidableEq, Repr

/-- 10 R198. -/
inductive LogKind where
  | strayPost | windowFault | linkFrame | unknownSource
  deriving DecidableEq, Repr

/-- 06 R118. -/
inductive ZoneLive where
  | opened | closing | closed
  deriving DecidableEq, Repr

/-- 07: a branch of a merge. -/
inductive Branch where
  | a | b
  deriving DecidableEq, Repr

/-- 07 R142. -/
inductive Convoy where
  | inactive | running | expired
  deriving DecidableEq, Repr

/-- 05 R107. -/
inductive HoistKind where
  | load | unload
  deriving DecidableEq, Repr

/-- 05 R107. -/
inductive HoistPhase where
  | queued | awaiting | retryWait | accepted
  deriving DecidableEq, Repr

/-- 04 R76: how a vehicle is a candidate. -/
inductive CandKind where
  | direct | chain
  deriving DecidableEq, Repr

/-- 09 R172: a shelf as a scan read it. -/
inductive Raw where
  | present | absent
  deriving DecidableEq, Repr

/-- 09 R172: the values that ghost inference gives. -/
inductive Sense where
  | empty | present | ambiguous
  deriving DecidableEq, Repr

/-- 09 R172: the logical state of a shelf. -/
inductive Logical where
  | free | reservedDrop | reservedPick
  deriving DecidableEq, Repr

/-- 08 R157: the last authority sent. -/
inductive Authority where
  | none_ | grant | stand
  deriving DecidableEq, Repr

/-- 08 R160: the two outbound queues, as the alternation mark names them. -/
inductive QueueName where
  | grant | hoist
  deriving DecidableEq, Repr

/-! ### Window Interface and Intake (10) -/

/-- The recorded layout (10 R186, Formats). -/
structure Layout where
  n : Nat
  orderTable : Nat
  statusBlock : Nat
  vehicleMirror : Nat
  zoneMirror : Nat
  shelfMirror : Nat
  staging : Nat
  stagingSize : Nat
  deriving DecidableEq, Repr

/-- The error log's record (10 R198). -/
structure LogRecord where
  kind : LogKind
  detail : Nat
  time : Time
  more : Bool := false
  deriving DecidableEq, Repr

/-- A slot's progress fields as they are written (10, Formats, offsets 64 to 95). -/
structure Progress where
  state : Nat
  flags : Nat
  vehicle : Option Nat
  shelf : Option Nat
  taken : Option Time
  assigned : Option Time
  loaded : Option Time
  ended : Option Time
  seq : BitVec 64
  deriving DecidableEq, Repr

/-- The final progress and the result of an ended order (03 R64). -/
structure Final where
  progress : Progress
  code : ResultCode
  reason : Option Reason
  flags : Nat
  detail : Nat
  place : Place
  readId : Option (List Byte)
  vehicle : Option Nat
  dest : Option Nat
  tag : BitVec 32
  deriving DecidableEq, Repr

/-- What a slot is still owed beside its progress: the state TAKEN, or a result and the state DONE (10 R188). -/
structure SlotDue where
  taken : Bool := false
  final : Option Final := none
  deriving DecidableEq, Repr

/-- A write in progress: the absolute address and the window offset of its record, its parts in order (address,
bytes), the causes it carries, whether it writes a slot's state field, and the causes of a further write that a
change made meanwhile calls for (10 R188, R195). -/
structure Job where
  offset : Nat
  parts : List (Nat × List Byte)
  causes : Causes
  stateField : Bool
  again : Option Causes
  deriving DecidableEq, Repr

/-- The Window Interface (10). -/
structure Win where
  engine : Engine := .stopped
  layoutCheck : Nat := 0
  cold : Bool := false
  mapKept : Bool := false
  manualEnable : Bool := false
  ce : Bool := false
  hold : Bool := false
  cause : Causes := {}
  enable : Causes := {}
  windowBase : BitVec 64 := 0
  windowMask : BitVec 64 := 0
  layout : Option Layout := none
  headerRead : Bool := false
  log : Option LogRecord := none
  errorDue : Bool := false
  vehicleRev : Table (BitVec 16) := []
  zoneRev : Table (BitVec 16) := []
  shelfRev : Table (BitVec 16) := []
  statusRev : BitVec 16 := 0
  deferred : List (WinRec × Causes) := []
  jobs : List (WinRec × Job) := []
  slotDue : Table SlotDue := []
  deriving DecidableEq, Repr

/-- A run of a lane: `count` slots from `first`, of which `done` have been read and acted on (10 R189, R190). -/
structure Run where
  first : Nat
  count : Nat
  done : Nat := 0
  deriving DecidableEq, Repr

/-- A notice lane (10 R189). -/
structure Lane where
  runs : List Run := []
  overflow : Bool := false
  deriving DecidableEq, Repr

/-- The sweep's position and repeat mark (10 R192). -/
structure Sweep where
  position : Nat
  again : Bool := false
  deriving DecidableEq, Repr

/-- What named the slot being read (10 R190). -/
inductive Origin where
  | hot | sweep | normal
  deriving DecidableEq, Repr

/-- A slot read in flight. -/
structure SlotRead where
  slot : Nat
  origin : Origin
  deriving DecidableEq, Repr

/-- Intake (10, section 10.4). -/
structure Ink where
  hot : Lane := {}
  normal : Lane := {}
  sweep : Option Sweep := none
  seq : BitVec 64 := 0
  read : Option SlotRead := none
  deriving DecidableEq, Repr

/-! ### Map Store (01) and Route Unit (02). An undefined entry is `none` in its table; the fields of a defined one
are held as loaded, since every check waits for MAP_COMMIT (01 R15). -/

/-- 01 R3, with the defaults; limits marked s in seconds, the rest in ms. -/
structure Globals where
  lookahead : Nat := 3
  chainWindow : Nat := 0
  lendPenalty : Nat := 0
  hoistAllowance : Nat := 0
  agingPeriod : Nat := 30
  stallLimit : Nat := 60
  hoistWaitLimit : Nat := 60
  busyRetry : Nat := 2000
  replyWindow : Nat := 500
  silenceLimit : Nat := 3000
  rackSilenceLimit : Nat := 10000
  deriving DecidableEq, Repr

/-- 01 R4; home bay 255 is NONE. -/
structure NodeEntry where
  homeBay : Nat
  loopPos : Nat
  loopNext : Nat
  deriving DecidableEq, Repr

/-- 01 R5. -/
structure SegmentEntry where
  fromNode : Nat
  toNode : Nat
  length : Nat
  speed : Nat
  zone : Nat
  deriving DecidableEq, Repr

/-- 01 R6; kind 1 PLAIN, 2 MERGE. -/
structure ZoneEntry where
  kind : Nat
  bay : Nat
  merge : Nat
  deriving DecidableEq, Repr

/-- 01 R6; park branch 0 A, 1 B. -/
structure MergeEntry where
  parkBranch : Nat
  zone : Nat
  predA : Nat
  predB : Nat
  convoyLimit : Nat
  deriving DecidableEq, Repr

/-- 01 R7: a pool policy. -/
structure Policy where
  lend : Bool := false
  borrow : Bool := false
  reserve : Nat := 0
  deriving DecidableEq, Repr

/-- 01 R7; `parkNodes` holds the eight staged numbers, of which the first `parkCount` are the list. -/
structure BayEntry where
  capacity : Nat
  policy : Policy
  entryNode : Nat
  parkCount : Nat
  rows : Nat
  cols : Nat
  loopLength : Nat
  firstShelf : Nat
  parkNodes : List Nat
  deriving DecidableEq, Repr

/-- 01 R8; kind 1 PORT, 2 STOCKER, 3 SHELF; initial state 0 OPEN, 1 CLOSED. -/
structure StationEntry where
  kind : Nat
  node : Nat
  code : Nat
  bay : Nat
  row : Nat
  col : Nat
  initial : Nat
  deriving DecidableEq, Repr

/-- 01 R9, an enabled entry. -/
structure DecodeEntry where
  bay : Nat
  first : Nat
  base : Nat
  mask : Nat
  count : Nat
  deriving DecidableEq, Repr

/-- 01 R10, a reachable entry. -/
structure RouteEntry where
  distance : Nat
  next : Nat
  join : Nat
  deriving DecidableEq, Repr

/-- A map directive with its operands as read at intake (01 R11). -/
inductive MapOp where
  | opening
  | load (sec first count offset : Nat)
  | commit
  | patch (count offset : Nat)
  deriving DecidableEq, Repr

/-- A place of the map directive queue. -/
structure MapDir where
  slot : Nat
  op : MapOp
  deriving DecidableEq, Repr

/-- A patch entry as read (02 R38); an unreachable entry has `none`. -/
structure PatchEntry where
  node : Nat
  bay : Nat
  route : Option RouteEntry
  deriving DecidableEq, Repr

/-- What the directive at the head of the queue is doing: nothing yet, a MAP_LOAD reading entry `next` (01 R15), a
MAP_COMMIT in validation (R17), a ROUTE_PATCH in one of its phases (02 R38) with the entries read so far. -/
inductive MapRun where
  | idle
  | loading (next : Nat)
  | validating
  | reading (buf : List PatchEntry)
  | waiting (buf : List PatchEntry)
  | checking (buf : List PatchEntry)
  deriving DecidableEq, Repr

/-- The Map Store (01). -/
structure MapStore where
  phase : MapPhase := .vacant
  globals : Globals := {}
  nodes : Table (Option NodeEntry) := []
  segments : Table (Option SegmentEntry) := []
  zones : Table (Option ZoneEntry) := []
  merges : Table (Option MergeEntry) := []
  bays : Table (Option BayEntry) := []
  stations : Table (Option StationEntry) := []
  decodes : Table (Option DecodeEntry) := []
  routes : Table (Option RouteEntry) := []
  policy : Table Policy := []
  liveClosed : Table Bool := []
  queue : List MapDir := []
  run : MapRun := .idle
  deriving DecidableEq, Repr

/-- The three times of a segment (02 R25). -/
structure SegTimes where
  base : Nat
  learned : Nat
  floor : Nat
  deriving DecidableEq, Repr

/-! ### Order Table (03) and Dispatch Engine (04) -/

/-- 03 R45. -/
inductive Source where
  | station (st : Nat)
  | vehicle (v : Nat)
  deriving DecidableEq, Repr

/-- 03 R45. -/
inductive Dest where
  | station (st : Nat)
  | buffer (bay : Nat)
  deriving DecidableEq, Repr

/-- The internal order record of a live MOVE (03 R45), keyed by its slot. -/
structure OrderRec where
  seq : BitVec 64
  cls : Nat
  source : Source
  dest : Dest
  chosen : Option Nat := none
  carrier : Option (List Byte) := none
  readId : Option (List Byte) := none
  tag : BitVec 32
  state : OrderState
  vehicle : Option Nat := none
  classClamped : Bool := false
  cancelTooLate : Bool := false
  shelfChosen : Bool := false
  cancelDeferred : Bool := false
  taken : Option Time := none
  assigned : Option Time := none
  loaded : Option Time := none
  ended : Option Time := none
  age : Nat := 0
  stale : Bool := false
  deriving DecidableEq, Repr

/-- A live directive: one in the map directive queue, a JOG, or a ZONE_CLOSE that waits (01 R11, 05 R102, 06 R134). -/
structure DirRec where
  kind : Nat
  tag : BitVec 32
  seq : BitVec 64
  taken : Time
  deriving DecidableEq, Repr

/-- A live order. -/
inductive Live where
  | move (r : OrderRec)
  | directive (d : DirRec)
  deriving DecidableEq, Repr

/-- The best candidate so far (04, section 4.4). -/
structure Best where
  vehicle : Nat
  kind : CandKind
  score : Nat
  deriving DecidableEq, Repr

/-- The Dispatch Engine (04, section 4.4, R71, R74). `position` is the vehicle number scored next, none when the
snapshot has been stepped over. -/
structure Dsp where
  evaluating : Bool := false
  order : Option Nat := none
  snapshot : List (Nat × CandKind) := []
  position : Option Nat := none
  best : Option Best := none
  restarts : Nat := 0
  changeSeen : Bool := false
  agingStart : Option Time := none
  inWindow : Table Bool := []
  deriving DecidableEq, Repr

/-! ### Fleet Table (05) -/

/-- 05 R92: standing at a node, or moving on the position segment. -/
structure Position where
  standing : Option Nat
  segment : Nat
  entry : Time := 0
  measurable : Bool := false
  deriving DecidableEq, Repr

/-- 05 R107. `sentOnce` says that the transmitter has taken the cycle's first HOIST (09 R180); `retryFrom` is the
time of the BUSY that began a RETRY_WAIT (R108). -/
structure HoistCycle where
  kind : HoistKind
  station : Nat
  carrier : Option (List Byte)
  phase : HoistPhase := .queued
  firstSend : Option Time := none
  acceptTime : Option Time := none
  allBusy : Bool := true
  retryFrom : Option Time := none
  sentOnce : Bool := false
  deriving DecidableEq, Repr

/-- 05 R102: the JOG's slot, its node, and whether the vehicle returns to HOLDING (else to IDLE). -/
structure Jog where
  slot : Nat
  node : Nat
  holding : Bool
  deriving DecidableEq, Repr

/-- 05 R92. The empty form is the default of every field. The authority limit is computed from the path (R92).
R92 gives the empty form's home pool no value: 0 is the model's. DESIGN CHOICE (unsafe, log 46). -/
structure Vehicle where
  state : VState := .offline
  uncertain : Bool := false
  quarantined : Bool := false
  retiring : Bool := false
  pool : Nat := 0
  pos : Option Position := none
  lastNode : Option Nat := none
  target : Option Nat := none
  circulating : Bool := false
  path : List Nat := []
  current : Option Nat := none
  chained : Option Nat := none
  park : Option Nat := none
  hoist : Option HoistCycle := none
  jog : Option Jog := none
  fault : FaultCode := .none_
  deriving DecidableEq, Repr

/-- The Fleet Table (05). -/
structure Flt where
  phase : FleetPhase := .assembly
  vehicles : Table Vehicle := []
  deriving DecidableEq, Repr

/-! ### Block Control (06), Merge Arbiters (07) -/

/-- A wait (06 R118). -/
structure Wait where
  vehicle : Nat
  since : Time
  stalled : Bool := false
  deriving DecidableEq, Repr

/-- 06 R118. The default is what MAP_COMMIT sets (R141). -/
structure ZoneRec where
  holder : Option Nat := none
  waiters : List Wait := []
  live : ZoneLive := .opened
  closingOrder : Option Nat := none
  stall : Bool := false
  deriving DecidableEq, Repr

/-- 07 R142. -/
structure Arbiter where
  favour : Branch
  convoy : Convoy := .inactive
  start : Time := 0
  park : Branch
  limit : Nat
  deriving DecidableEq, Repr

/-! ### Trackside Link (08), Buffer Monitor (09) -/

/-- 08 R159. -/
structure HoistEntry where
  tag : BitVec 8
  kind : HoistKind
  station : Nat
  code : Nat
  carrier : Option (List Byte)
  deriving DecidableEq, Repr

/-- 08 R153: a frame as it is sent. -/
inductive OutFrame where
  | grant (path : List Nat) (limit : Nat)
  | hoist (e : HoistEntry)
  | stand
  deriving DecidableEq, Repr

/-- The frame in transmission. `noWait`: its HOIST starts no reply wait, its cycle having ended (08 R157, R159, R166). -/
structure Tx where
  vehicle : Nat
  frame : OutFrame
  noWait : Bool := false
  deriving DecidableEq, Repr

/-- 08 R157. -/
structure Link where
  lastSent : Authority := .none_
  sentLimit : Option Nat := none
  grantTime : Option Time := none
  confirm : Nat := 0
  tag : BitVec 8 := 0
  sends : Nat := 0
  replyWait : Option Time := none
  silence : Option Time := none
  deriving DecidableEq, Repr

/-- The Trackside Link (08). A GRANT-queue entry is an address and whether it is a GRANT (else a STAND) (R158). -/
structure Tsl where
  linkHold : Bool := false
  grantQueue : List (Nat × Bool) := []
  hoistQueue : List (Nat × HoistEntry) := []
  tx : Option Tx := none
  mark : QueueName := .hoist
  links : Table Link := []
  deriving DecidableEq, Repr

/-- 09 R172. A sensed state of `none` is UNKNOWN. The default is what MAP_COMMIT sets (R182). -/
structure Shelf where
  raw : Option Raw := none
  inferred : Option Sense := none
  pending : Option Sense := none
  sensed : Option Sense := none
  logical : Logical := .free
  reserving : Option Nat := none
  placed : Bool := false
  deriving DecidableEq, Repr

/-- 09 R172: a scan under assembly; each row received with its columns as bits. -/
structure Assembly where
  seq : Nat
  rows : Table (Option Nat) := []
  deriving DecidableEq, Repr

/-- 09 R172. -/
structure Rack where
  assembly : Option Assembly := none
  lastSeq : Option Nat := none
  timer : Option Time := none
  deriving DecidableEq, Repr

/-- The Buffer Monitor (09). -/
structure Buf where
  shelves : Table Shelf := []
  racks : Table Rack := []
  deriving DecidableEq, Repr

/-! ### The whole -/

/-- What leaves the part beside its window writes. -/
inductive Output where
  /-- A cause's message interrupt (10 R197). -/
  | message (c : Cause)
  /-- A frame whose transmission completed, byte by byte (08 R152, R160). -/
  | frame (bytes : List Byte)
  /-- The value a read of HOLD returned (10 R193). -/
  | holdValue (b : Bool)
  deriving DecidableEq, Repr

/-- A request or notice between blocks that one step still has to act on (log 5). -/
inductive Task where
  /-- BLK makes an extension attempt for the vehicle (06 R121). -/
  | attempt (v : Nat)
  /-- BLK revises the vehicle's wait (06 R127). -/
  | revise (v : Nat)
  /-- BLK serves the zone's waiters (06 R129); `waiting`: only if it still has any (06 R127, R130). -/
  | serve (z : Nat) (waiting : Bool)
  /-- BLK releases the zone the vehicle holds (06 R128). -/
  | release (v z : Nat)
  /-- BLK re-examines the bay's waits (06 R130). -/
  | reexamine (b : Nat)
  /-- FLT nudges the zone's IDLE holder (05 R116). -/
  | nudge (v : Nat)
  /-- FLT applies the parking rule (05 R114). -/
  | parking (v : Nat)
  /-- FLT offers a released park node (05 R114). -/
  | offer (n : Nat)
  /-- FLT makes the arrival handling, if the vehicle stands at its target (05 R106). -/
  | arrival (v : Nat)
  /-- FLT handles the STATUS RUN of the frame under which TSL found AUTH_STALE (05 R111, 08 R164; log 41). -/
  | recover (v load : Nat)
  /-- MAP runs the directive that has reached the head of its queue (01 R11). -/
  | mapHead
  deriving DecidableEq, Repr

/-- The state of the block. -/
structure State where
  pending : List Instr := []
  clock : Time := 0
  agenda : List Task := []
  out : List Output := []
  freeIndex : Nat := 0
  window : Memory := []
  win : Win := {}
  ink : Ink := {}
  map : MapStore := {}
  times : Table (Option SegTimes) := []
  orders : Table (Option Live) := []
  dsp : Dsp := {}
  flt : Flt := {}
  zones : Table ZoneRec := []
  arbiters : Table (Option Arbiter) := []
  tsl : Tsl := {}
  buf : Buf := {}
  deriving DecidableEq, Repr

/-- The block has no event that stops it (10 R198: faults of the window and the link are logged; 03 R64: refusals and
failures are results). So no meaning raises a fault. -/
inductive Fault where
  /-- Raised by no meaning; it stands for a stop that the spec does not have. Safe. -/
  | neverRaised
  deriving DecidableEq, Repr

/-- Why a command has no meaning. -/
inductive Refusal where
  /-- Raised by `exec` for a row whose meaning is not written yet; none is left. Safe. -/
  | notModelled (mnemonic : String)
  deriving DecidableEq, Repr

/-- The machine right after power-on (10 R199; 01 R24; 03 R69; 04 R90; 05 R117; 06 R141; 07 R151; 08 R170; 09 R182):
every field at its cold value, COLD set, the part clock at 0. -/
def State.reset : State :=
  { pending := [], clock := 0, agenda := [], out := [], freeIndex := 0, window := [], win := { cold := true } }

end Sys2Proof.Machine
end

