-- ==== Sys2Proof/Machine/Ops.lean ====
section
/-! DEFINITION. The named operations over tables, host memory and records that every block uses. -/

namespace Sys2Proof.Machine

/-! ### Tables -/

/-- The entry at an index; `d` is the table's empty form. -/
def tget {α : Type} (d : α) : Table α → Nat → α
  | [], _ => d
  | (k, v) :: t, i => if k = i then v else tget d t i

/-- Writes an entry, keeping indexes rising and leaving an entry equal to the empty form out. -/
def tset {α : Type} [DecidableEq α] (d : α) : Table α → Nat → α → Table α
  | [], i, v => if v = d then [] else [(i, v)]
  | (k, w) :: t, i, v =>
    if i < k then (if v = d then (k, w) :: t else (i, v) :: (k, w) :: t)
    else if i = k then (if v = d then t else (i, v) :: t)
    else (k, w) :: tset d t i v

/-- The indexes listed, rising. -/
def tkeys {α : Type} (t : Table α) : List Nat := t.map (fun p => p.1)

/-- Whether every index listed is above `n`. -/
def tableAbove {α : Type} (n : Nat) : Table α → Bool
  | [] => true
  | (k, _) :: t => decide (n < k) && tableAbove n t

/-- The canonical form: indexes strictly rising, no entry equal to the empty form. -/
def tableWf {α : Type} [DecidableEq α] (d : α) : Table α → Bool
  | [] => true
  | (k, v) :: t => tableAbove k t && !decide (v = d) && tableWf d t

/-- The elements of a list, each once. -/
def uniq : List Nat → List Nat
  | [] => []
  | x :: l => if l.contains x then uniq l else x :: uniq l

/-- Puts a number into a rising list. -/
def insertNat (x : Nat) : List Nat → List Nat
  | [] => [x]
  | y :: l => if x ≤ y then x :: y :: l else y :: insertNat x l

/-- A list of numbers in rising order. -/
def sortNat (l : List Nat) : List Nat := l.foldr insertNat []

/-- The indexes at which two tables differ, rising. -/
def changedKeys {α : Type} [DecidableEq α] (d : α) (a b : Table α) : List Nat :=
  if a = b then [] else (sortNat (uniq (tkeys a ++ tkeys b))).filter (fun k => !decide (tget d a k = tget d b k))

/-! ### Host memory (10 Formats; log 7) -/

/-- What a byte of host memory that the part has not written reads as. DESIGN CHOICE (unsafe, log 7). -/
def unwritten : Byte := 0

/-- One byte of the host window as the part's completed writes left it. -/
def readByte (m : Memory) (a : Nat) : Byte := tget unwritten m a

/-- Writes one byte. -/
def writeByte (m : Memory) (a : Nat) (b : Byte) : Memory := tset unwritten m a b

/-- The canonical form of host memory. -/
def memoryWf (m : Memory) : Bool := tableWf unwritten m

/-- The address `n` bytes on, within 64 bits. -/
def addrAdd (a n : Nat) : Nat := (a + n) % 18446744073709551616

/-- Writes bytes at rising addresses. -/
def writeBytes (m : Memory) (a : Nat) : List Byte → Memory
  | [] => m
  | b :: bs => writeBytes (writeByte m a b) (addrAdd a 1) bs

/-- Writes the parts of a record one after the other. -/
def writeParts (m : Memory) : List (Nat × List Byte) → Memory
  | [] => m
  | (a, bs) :: ps => writeParts (writeBytes m a bs) ps

/-- The first `n` bytes of a record's parts. -/
def partsPrefix (n : Nat) : List (Nat × List Byte) → List (Nat × List Byte)
  | [] => []
  | (a, bs) :: ps => (a, bs.take n) :: partsPrefix (n - bs.length) ps

/-! ### The internal agenda (log 5) -/

/-- Asks for tasks, after those already asked for by the same act. -/
def push (ts : List Task) (s : State) : State := { s with agenda := s.agenda ++ ts }

/-! ### The map as loaded (01) -/

def nodeAt (s : State) (n : Nat) : Option NodeEntry := tget none s.map.nodes n
def segAt (s : State) (k : Nat) : Option SegmentEntry := tget none s.map.segments k
def zoneAt (s : State) (z : Nat) : Option ZoneEntry := tget none s.map.zones z
def mergeAt (s : State) (m : Nat) : Option MergeEntry := tget none s.map.merges m
def bayAt (s : State) (b : Nat) : Option BayEntry := tget none s.map.bays b
def stationAt (s : State) (st : Nat) : Option StationEntry := tget none s.map.stations st
/-- 01 R2: the index of a route entry is node × 64 + destination bay. -/
def routeIndex (n b : Nat) : Nat := n * 64 + b
def routeAt (s : State) (n b : Nat) : Option RouteEntry := tget none s.map.routes (routeIndex n b)

def committed (s : State) : Bool := decide (s.map.phase = .committed)

/-- 01 R4: home bay 255 is NONE. -/
def noBay : Nat := 255
def homeOf (e : NodeEntry) : Option Nat := if e.homeBay = noBay then none else some e.homeBay
def homeBay (s : State) (n : Nat) : Option Nat := (nodeAt s n).bind homeOf
def segFrom (s : State) (k : Nat) : Option Nat := (segAt s k).map (fun e => e.fromNode)
def segTo (s : State) (k : Nat) : Option Nat := (segAt s k).map (fun e => e.toNode)
def segZone (s : State) (k : Nat) : Option Nat := (segAt s k).map (fun e => e.zone)
def zoneBay (s : State) (z : Nat) : Option Nat := (zoneAt s z).map (fun e => e.bay)
def stationNode (s : State) (st : Nat) : Option Nat := (stationAt s st).map (fun e => e.node)
/-- 01 R6, Formats: kind 2 is MERGE. -/
def isMerge (e : ZoneEntry) : Bool := decide (e.kind = 2)
/-- 01 R8, Formats: kind 3 is SHELF. -/
def isShelf (s : State) (st : Nat) : Bool := (stationAt s st).any (fun e => decide (e.kind = 3))
/-- 01 R7: a bay has a rack when its rows and columns are both non-zero. -/
def hasRack (e : BayEntry) : Bool := decide (e.rows ≠ 0) && decide (e.cols ≠ 0)
/-- 01 R7: the park node list of a bay. -/
def parkList (s : State) (b : Nat) : List Nat := match bayAt s b with
  | some e => e.parkNodes.take e.parkCount
  | none => []
/-- The stations of a bay's rack, in row-major order (09, section 9.2). -/
def rackShelves (e : BayEntry) : List Nat := (List.range (e.rows * e.cols)).map (fun i => e.firstShelf + i)

/-! ### Orders (03) -/

def liveAt (s : State) (k : Nat) : Option Live := tget none s.orders k
def orderAt (s : State) (k : Nat) : Option OrderRec := match liveAt s k with
  | some (.move r) => some r
  | _ => none
def putLive (k : Nat) (l : Option Live) (s : State) : State := { s with orders := tset none s.orders k l }
def putOrder (k : Nat) (r : OrderRec) (s : State) : State := putLive k (some (.move r)) s
/-- Changes the record of a live MOVE; no effect where the slot holds none. -/
def modOrder (k : Nat) (f : OrderRec → OrderRec) (s : State) : State := match orderAt s k with
  | some r => putOrder k (f r) s
  | none => s
/-- The live MOVEs with their slots, in slot order. -/
def moves (s : State) : List (Nat × OrderRec) := s.orders.filterMap (fun p => match p.2 with
  | some (.move r) => some (p.1, r)
  | _ => none)

/-- 04 R71. -/
def rankOf (r : OrderRec) : Nat := 64 * r.cls + r.age

/-- 03 R46: the slot of the live MOVE that claims a station as source. -/
def claimSource (s : State) (st : Nat) : Option Nat :=
  ((moves s).find? (fun p => decide (p.2.source = .station st))).map (fun p => p.1)
/-- 03 R46: the slot of the live MOVE that claims a vehicle as source. -/
def claimVehicle (s : State) (v : Nat) : Option Nat :=
  ((moves s).find? (fun p => decide (p.2.source = .vehicle v))).map (fun p => p.1)
/-- 03 R46: the station a MOVE claims as destination: the named one, or its chosen shelf. -/
def destStation (r : OrderRec) : Option Nat := match r.dest with
  | .station st => some st
  | .buffer _ => r.chosen
/-- 03 R46: the slot of the live MOVE that claims a station as destination. -/
def claimDest (s : State) (st : Nat) : Option Nat :=
  ((moves s).find? (fun p => decide (destStation p.2 = some st))).map (fun p => p.1)

/-- Whether `p` stands before `q` in the pending list (04 R70). -/
def pendingBefore (p q : Nat × OrderRec) : Bool :=
  decide (rankOf q.2 < rankOf p.2) || (decide (rankOf q.2 = rankOf p.2) && decide (p.2.seq.toNat < q.2.seq.toNat))
def insertPending (x : Nat × OrderRec) : List (Nat × OrderRec) → List (Nat × OrderRec)
  | [] => [x]
  | y :: l => if pendingBefore x y then x :: y :: l else y :: insertPending x l
/-- The pending list in its order (04 R70): each live MOVE in state PENDING, by rank, then by intake sequence. -/
def pendingList (s : State) : List (Nat × OrderRec) :=
  ((moves s).filter (fun p => decide (p.2.state = .pending))).foldr insertPending []

/-! ### Fleet availability (04 R73) -/

/-- Clears the evaluated-stale flag of every pending order (04 R72). -/
def clearStale (s : State) : State :=
  { s with orders := s.orders.map (fun p => (p.1, match p.2 with
      | some (.move r) => some (.move (if r.state = .pending then { r with stale := false } else r))
      | l => l)) }
/-- A fleet availability change: every pending order's stale flag is cleared, and an evaluation in flight notes the
change (04 R73, R85). -/
def availability (s : State) : State :=
  clearStale { s with dsp := { s.dsp with changeSeen := s.dsp.changeSeen || s.dsp.evaluating } }

/-! ### Vehicles (05) -/

def veh (s : State) (v : Nat) : Vehicle := tget {} s.flt.vehicles v
/-- The three states of 04 R73. -/
def selectable : VState → Bool
  | .idle | .parking | .toDest => true
  | _ => false
/-- Whether a change of a record is a fleet availability change (04 R73, first three rows). -/
def availChange (a b : Vehicle) : Bool :=
  (!decide (a.state = b.state) && (selectable a.state || selectable b.state)) ||
  !decide (a.uncertain = b.uncertain) || !decide (a.quarantined = b.quarantined) ||
  (decide (a.state = .toDest) && decide (b.state = .toDest) && !decide (a.chained.isSome = b.chained.isSome))
/-- Whether a change of a record clears its in-window mark (04 R74). -/
def leavesWindow (a b : Vehicle) : Bool :=
  decide (a.state = .toDest) && (!decide (b.state = .toDest) || (a.chained.isNone && b.chained.isSome))
/-- Writes a vehicle record. The change is reported to DSP where 04 R73 and R74 say so. -/
def putVeh (v : Nat) (r : Vehicle) (s : State) : State :=
  let old := veh s v
  let s1 : State := { s with flt := { s.flt with vehicles := tset {} s.flt.vehicles v r } }
  let s2 : State := if leavesWindow old r then { s1 with dsp := { s1.dsp with inWindow := tset false s1.dsp.inWindow v false } } else s1
  if availChange old r then availability s2 else s2
def modVeh (v : Nat) (f : Vehicle → Vehicle) (s : State) : State := putVeh v (f (veh s v)) s
/-- The vehicles whose record is not empty, rising. -/
def fleet (s : State) : List (Nat × Vehicle) := s.flt.vehicles

/-- The node a vehicle stands at, none while it moves. -/
def standingAt (r : Vehicle) : Option Nat := r.pos.bind (fun p => p.standing)
/-- The segment that ends at the authority limit: the last of the path, or the position segment (06 R122). -/
def limitSegment (r : Vehicle) : Option Nat := match r.path.getLast? with
  | some k => some k
  | none => r.pos.map (fun p => p.segment)
/-- The authority limit: the to node of the last path segment, or the standing node (05 R92). -/
def limitOf (s : State) (r : Vehicle) : Option Nat := match r.path.getLast? with
  | some k => segTo s k
  | none => standingAt r
/-- The zone of the position segment. -/
def positionZone (s : State) (r : Vehicle) : Option Nat := r.pos.bind (fun p => segZone s p.segment)

/-- 04 R77, 05 R95: the idle count of a pool. -/
def idleCount (s : State) (p : Nat) : Nat :=
  ((fleet s).filter (fun q => decide (q.2.pool = p) && (decide (q.2.state = .idle) || decide (q.2.state = .parking)) &&
    !q.2.uncertain && !q.2.quarantined)).length

/-! ### Zones and bays (06) -/

def zoneRec (s : State) (z : Nat) : ZoneRec := tget {} s.zones z
def putZone (z : Nat) (r : ZoneRec) (s : State) : State := { s with zones := tset {} s.zones z r }
/-- The zones a vehicle holds, rising. -/
def zonesHeld (s : State) (v : Nat) : List Nat :=
  (s.zones.filter (fun p => decide (p.2.holder = some v))).map (fun p => p.1)
/-- 06 R120: the occupancy of a bay, 0 while the map is not COMMITTED (10 R196). -/
def occupancy (s : State) (b : Nat) : Nat :=
  if committed s then
    (uniq (s.zones.filterMap (fun p => if zoneBay s p.1 = some b then p.2.holder else none))).length
  else 0
/-- Whether a vehicle holds a zone of a bay. -/
def holdsBay (s : State) (v b : Nat) : Bool := (zonesHeld s v).any (fun z => decide (zoneBay s z = some b))
/-- 01 R7. -/
def capacityOf (s : State) (b : Nat) : Nat := match bayAt s b with
  | some e => e.capacity
  | none => 0
/-- The zone in whose waiter list a vehicle stands (06 R118: at most one). -/
def waitingAt (s : State) (v : Nat) : Option Nat :=
  (s.zones.find? (fun p => p.2.waiters.any (fun w => decide (w.vehicle = v)))).map (fun p => p.1)
/-- 06 R138: the stall flag is set while a wait of the zone carries its mark. -/
def stallOf (ws : List Wait) : Bool := ws.any (fun w => w.stalled)

/-! ### Shelves and racks (09) -/

def shelfAt (s : State) (st : Nat) : Shelf := tget {} s.buf.shelves st
/-- 04 R73: a change of sensed state, logical state or placed mark is an availability change. -/
def shelfAvail (a b : Shelf) : Bool :=
  !decide (a.sensed = b.sensed) || !decide (a.logical = b.logical) || !decide (a.placed = b.placed)
def putShelf (st : Nat) (h : Shelf) (s : State) : State :=
  let old := shelfAt s st
  let s1 : State := { s with buf := { s.buf with shelves := tset {} s.buf.shelves st h } }
  if shelfAvail old h then availability s1 else s1
def rackAt (s : State) (b : Nat) : Rack := tget {} s.buf.racks b
def putRack (b : Nat) (r : Rack) (s : State) : State := { s with buf := { s.buf with racks := tset {} s.buf.racks b r } }
/-- 09 R171. -/
def stationClosed (s : State) (st : Nat) : Bool := tget false s.map.liveClosed st

/-! ### Link records (08 R157) -/

def linkAt (s : State) (v : Nat) : Link := tget {} s.tsl.links v
def putLink (v : Nat) (l : Link) (s : State) : State := { s with tsl := { s.tsl with links := tset {} s.tsl.links v l } }
def modLink (v : Nat) (f : Link → Link) (s : State) : State := putLink v (f (linkAt s v)) s

/-! ### The evaluation in flight -/

/-- Returns DSP to READY (04, section 4.4); a ROUTE_PATCH in WAITING passes to CHECKING (02 R40). -/
def evaluationEnds (s : State) : State :=
  let s1 : State := { s with dsp := { s.dsp with
    evaluating := false, order := none, snapshot := [], position := none, best := none, restarts := 0, changeSeen := false } }
  match s1.map.run with
  | .waiting buf => { s1 with map := { s1.map with run := .checking buf } }
  | _ => s1

end Sys2Proof.Machine
end

