-- ==== Sys2Proof/Machine/Flags.lean ====
section
/-! DEFINITION. Causes, message interrupts, the error log, and the register words the host reads (10). -/

namespace Sys2Proof.Machine

/-- Whether a cause is in a set. -/
def hasCause (cs : Causes) : Cause → Bool
  | .order => cs.order
  | .fleet => cs.fleet
  | .track => cs.track
  | .error => cs.error
  | .lane => cs.lane

/-- A set with one cause set to a value. -/
def withCause (cs : Causes) (c : Cause) (b : Bool) : Causes := match c with
  | .order => { cs with order := b }
  | .fleet => { cs with fleet := b }
  | .track => { cs with track := b }
  | .error => { cs with error := b }
  | .lane => { cs with lane := b }

/-- The union of two sets. -/
def joinCauses (a b : Causes) : Causes :=
  { order := a.order || b.order, fleet := a.fleet || b.fleet, track := a.track || b.track,
    error := a.error || b.error, lane := a.lane || b.lane }

/-- The causes in the order of their bits in CAUSE (10, Formats). -/
def allCauses : List Cause := [.order, .fleet, .track, .error, .lane]

/-- Raises a cause: a cause already pending stays as it is and sends no message; one that becomes pending sends its
message if it is enabled (10 R197). -/
def raiseCause (c : Cause) (s : State) : State :=
  if hasCause s.win.cause c then s
  else
    let s1 : State := { s with win := { s.win with cause := withCause s.win.cause c true } }
    if hasCause s1.win.enable c then { s1 with out := s1.out ++ [.message c] } else s1

/-- Raises each cause of a set. -/
def raiseCauses (cs : Causes) (s : State) : State :=
  allCauses.foldl (fun t c => if hasCause cs c then raiseCause c t else t) s

/-- Logs an error (10 R198): an empty log is filled, a full one sets MORE; CE is cleared. Filling the log raises ERROR
at once while the engine is not RUNNING (R187), otherwise with the write of the status block (R196). -/
def logError (kind : LogKind) (detail : Nat) (s : State) : State :=
  match s.win.log with
  | some r => { s with win := { s.win with ce := false, log := some { r with more := true } } }
  | none =>
    let s1 : State := { s with win := { s.win with
      ce := false, log := some { kind := kind, detail := detail, time := s.clock, more := false } } }
    if s.win.engine = .running then { s1 with win := { s1.win with errorDue := true } }
    else raiseCause .error s1

/-- 10, Formats: detail of a WINDOW_FAULT: the offset or check number in bits 27:0, the cause in bits 31:28. -/
def faultDetail (cause offset : Nat) : Nat := cause * 268435456 + offset % 268435456
/-- 10, Formats: detail of a STRAY_POST. -/
def strayDetail (slot : Nat) (hot : Bool) (state : Nat) : Nat :=
  slot % 4096 + (if hot then 32768 else 0) + (state % 256) * 65536
/-- 10, Formats: detail of an UNKNOWN_SOURCE, and of a LINK_FRAME with its reason in bits 25:24. -/
def frameDetail (addr kind reason : Nat) : Nat := addr % 512 + (kind % 256) * 65536 + reason * 16777216

/-! ### Register words -/

def bit (b : Bool) (i : Nat) : Nat := if b then 2 ^ i else 0

def engineCode : Engine → Nat
  | .stopped => 0
  | .layoutFault => 1
  | .running => 2
def mapPhaseCode : MapPhase → Nat
  | .vacant => 0
  | .opened => 1
  | .committed => 2
def fleetPhaseCode : FleetPhase → Nat
  | .assembly => 0
  | .operating => 1
def causesWord (cs : Causes) : Nat := bit cs.order 0 + bit cs.fleet 1 + bit cs.track 2 + bit cs.error 3 + bit cs.lane 4
/-- The causes whose bits a word sets (10, Formats, CAUSE and ENABLE). -/
def causesOf (w : BitVec 64) : Causes :=
  { order := w.getLsbD 0, fleet := w.getLsbD 1, track := w.getLsbD 2, error := w.getLsbD 3, lane := w.getLsbD 4 }

/-- STATUS as it stands (10 R183, Formats). -/
def statusWord (s : State) : BitVec 64 :=
  BitVec.ofNat 64 (engineCode s.win.engine + bit s.win.cold 2 + bit s.win.mapKept 3 + mapPhaseCode s.map.phase * 16 +
    fleetPhaseCode s.flt.phase * 64 + bit s.ink.hot.overflow 7 + bit s.ink.normal.overflow 8 + bit s.win.hold 9 +
    bit s.ink.sweep.isSome 10 + s.win.layoutCheck * 4096)
/-- CONTROL as it reads: the strobes read as 0 (10 R184). -/
def controlWord (s : State) : BitVec 64 :=
  BitVec.ofNat 64 (bit s.win.manualEnable 4 + bit s.tsl.linkHold 5 + bit s.win.ce 8)

/-- What a read of a register returns, beside the effect that a read of HOLD has (10 R183, R193); a read of POST has
no value, and offsets that name no register read as 0. -/
def readRegister (s : State) (offset : Nat) : Option (BitVec 64) :=
  if offset = 0 then some (controlWord s)
  else if offset = 8 then some (statusWord s)
  else if offset = 16 then none
  else if offset = 24 then some (BitVec.ofNat 64 (bit s.win.hold 0))
  else if offset = 32 then some (BitVec.ofNat 64 (causesWord s.win.cause))
  else if offset = 40 then some (BitVec.ofNat 64 (causesWord s.win.enable))
  else if offset = 48 then some s.win.windowBase
  else if offset = 56 then some s.win.windowMask
  else some 0

end Sys2Proof.Machine
end

