-- ==== Sys2Proof/Machine/Operands.lean ====
section
/-! DEFINITION. Byte layouts (10, Formats): how slots, the layout header, staging entries and inbound frames are read
from bytes, and how slots, mirror records, the status block and outbound frames are written as bytes. -/

namespace Sys2Proof.Machine

/-! ### Fields -/

/-- A little-endian number (10, Formats). -/
def leNat : List Byte → Nat
  | [] => 0
  | b :: bs => b.toNat + 256 * leNat bs
/-- A number whose most significant byte is first. -/
def beNat (bs : List Byte) : Nat := bs.foldl (fun a b => a * 256 + b.toNat) 0
/-- The field of `size` bytes at an offset, little-endian. -/
def field (bs : List Byte) (off size : Nat) : Nat := leNat ((bs.drop off).take size)
/-- The same, most significant byte first (trackside frames). -/
def fieldBE (bs : List Byte) (off size : Nat) : Nat := beNat ((bs.drop off).take size)
/-- A number in `n` bytes, little-endian. -/
def leBytes : Nat → Nat → List Byte
  | 0, _ => []
  | n + 1, v => BitVec.ofNat 8 v :: leBytes n (v / 256)
/-- A number in `n` bytes, most significant first. -/
def beBytes (n v : Nat) : List Byte := (leBytes n v).reverse
/-- A number field whose none is 0xFFFF. -/
def orNone (o : Option Nat) : List Byte := leBytes 2 (o.getD 65535)
/-- Bytes of a field that holds nothing: free (log 40). -/
def fill (off n : Nat) : List Byte := (List.range n).map (fun i => Config.fillByte (off + i))
/-- Bytes in a field of `n` bytes at an offset, the rest of it free (log 40). -/
def padTo (off n : Nat) (bs : List Byte) : List Byte := bs.take n ++ fill (off + bs.length) (n - bs.length)
/-- A part-clock value at an offset, free bytes where there is none (log 40). -/
def optTime (off : Nat) : Option Time → List Byte
  | some x => leBytes 4 x.toNat
  | none => fill off 4

/-! ### The layout header and slots -/

/-- Version and layout (10, Formats, layout header). -/
def parseHeader (bs : List Byte) : Nat × Layout :=
  (field bs 0 2,
    { n := field bs 2 2, orderTable := field bs 4 4, statusBlock := field bs 8 4, vehicleMirror := field bs 12 4,
      zoneMirror := field bs 16 4, shelfMirror := field bs 20 4, staging := field bs 24 4, stagingSize := field bs 28 4 })

/-- What an order asks for, as the slot's kind and operands say it. -/
inductive SlotOp where
  | move (m : MoveOps)
  | mapDir (op : MapOp)
  | fleetOpen
  | admitVehicle (v pool seg : Nat)
  | retire (v : Nat)
  | locate (v seg : Nat)
  | release (v : Nat)
  | jog (v node : Nat)
  | poolPolicy (bay marks reserve : Nat)
  | zoneClose (z : Nat)
  | zoneOpen (z : Nat)
  | stationState (st state : Nat)
  | unknown (kind : Nat)
  deriving DecidableEq, Repr

/-- The operands of a slot by its kind (10, Formats, operands). -/
def parseOp (bs : List Byte) : SlotOp := match field bs 2 1 with
  | 1 => .move { cls := field bs 8 1, srcKind := field bs 9 1, dstKind := field bs 10 1, idLength := field bs 11 1,
                 srcValue := field bs 12 4, dstValue := field bs 16 4, carrier := (bs.drop 20).take 32 }
  | 2 => .mapDir .opening
  | 3 => .mapDir (.load (field bs 8 1) (field bs 12 4) (field bs 16 4) (field bs 20 4))
  | 4 => .mapDir .commit
  | 5 => .mapDir (.patch (field bs 16 4) (field bs 20 4))
  | 6 => .fleetOpen
  | 7 => .admitVehicle (field bs 8 2) (field bs 10 1) (field bs 12 2)
  | 8 => .retire (field bs 8 2)
  | 9 => .locate (field bs 8 2) (field bs 12 2)
  | 10 => .release (field bs 8 2)
  | 11 => .jog (field bs 8 2) (field bs 12 2)
  | 12 => .poolPolicy (field bs 8 1) (field bs 9 1) (field bs 10 1)
  | 13 => .zoneClose (field bs 8 2)
  | 14 => .zoneOpen (field bs 8 2)
  | 15 => .stationState (field bs 8 2) (field bs 10 1)
  | k => .unknown k

/-- The first 64 bytes of a slot as INK reads them (10 R188). -/
structure SlotContents where
  state : Nat
  cancel : Nat
  tag : BitVec 32
  op : SlotOp
  deriving DecidableEq, Repr

def parseSlot (bs : List Byte) : SlotContents :=
  { state := field bs 0 1, cancel := field bs 1 1, tag := BitVec.ofNat 32 (field bs 4 4), op := parseOp bs }

/-- The kind code of an order (10, Formats, slot offset 2). -/
def kindCode : SlotOp → Nat
  | .move _ => 1
  | .mapDir .opening => 2
  | .mapDir (.load _ _ _ _) => 3
  | .mapDir .commit => 4
  | .mapDir (.patch _ _) => 5
  | .fleetOpen => 6
  | .admitVehicle _ _ _ => 7
  | .retire _ => 8
  | .locate _ _ => 9
  | .release _ => 10
  | .jog _ _ => 11
  | .poolPolicy _ _ _ => 12
  | .zoneClose _ => 13
  | .zoneOpen _ => 14
  | .stationState _ _ => 15
  | .unknown k => k

/-! ### Staging entries. Byte 0 being 1 means defined, enabled or reachable (10, Formats; log 15) -/

/-- The entry, if byte 0 marks it. -/
def marked {α : Type} (bs : List Byte) (e : α) : Option α := if field bs 0 1 = 1 then some e else none

def parseGlobals (bs : List Byte) : Globals :=
  { lookahead := field bs 0 1, agingPeriod := field bs 1 1, stallLimit := field bs 2 1, hoistWaitLimit := field bs 3 1,
    chainWindow := field bs 4 2, lendPenalty := field bs 6 2, hoistAllowance := field bs 8 2, busyRetry := field bs 10 2,
    replyWindow := field bs 12 2, silenceLimit := field bs 14 2, rackSilenceLimit := field bs 16 2 }
def parseNode (bs : List Byte) : Option NodeEntry :=
  marked bs { homeBay := field bs 1 1, loopNext := field bs 2 2, loopPos := field bs 4 4 }
def parseSegment (bs : List Byte) : Option SegmentEntry :=
  marked bs { fromNode := field bs 2 2, toNode := field bs 4 2, length := field bs 6 2, speed := field bs 8 2, zone := field bs 10 2 }
def parseZone (bs : List Byte) : Option ZoneEntry :=
  marked bs { kind := field bs 1 1, bay := field bs 2 1, merge := field bs 4 2 }
def parseMerge (bs : List Byte) : Option MergeEntry :=
  marked bs { parkBranch := field bs 1 1, zone := field bs 2 2, predA := field bs 4 2, predB := field bs 6 2, convoyLimit := field bs 8 2 }
def parseBay (bs : List Byte) : Option BayEntry :=
  marked bs
    { capacity := field bs 1 1,
      policy := { lend := field bs 2 1 % 2 = 1, borrow := field bs 2 1 / 2 % 2 = 1, reserve := field bs 3 1 % 16 },
      entryNode := field bs 4 2, parkCount := field bs 6 1, rows := field bs 7 1, loopLength := field bs 8 4,
      firstShelf := field bs 12 2, cols := field bs 14 1,
      parkNodes := (List.range 8).map (fun i => field bs (16 + 2 * i) 2) }
def parseStation (bs : List Byte) : Option StationEntry :=
  marked bs { kind := field bs 1 1, node := field bs 2 2, code := field bs 4 3, bay := field bs 8 1, row := field bs 9 1,
              col := field bs 10 1, initial := field bs 11 1 }
def parseDecode (bs : List Byte) : Option DecodeEntry :=
  marked bs { bay := field bs 1 1, first := field bs 2 2, base := field bs 4 3, mask := field bs 8 3, count := field bs 12 2 }
def parseRoute (bs : List Byte) : Option RouteEntry :=
  marked bs { distance := field bs 1 3, next := field bs 4 2, join := field bs 6 2 }
def parsePatch (bs : List Byte) : PatchEntry :=
  { node := field bs 0 2, bay := field bs 2 1, route := parseRoute (bs.drop 8) }

/-- 01 R2: how many entries a section holds, none for a code that is no section's. -/
def sectionCapacity : Nat → Option Nat
  | 0 => some 1
  | 1 => some Config.nodeCount
  | 2 => some Config.segmentCount
  | 3 => some Config.zoneCount
  | 4 => some Config.mergeCount
  | 5 => some Config.bayCount
  | 6 => some Config.stationCount
  | 7 => some Config.decodeCount
  | 8 => some Config.routeCount
  | _ => none
/-- 10, Formats: the staging entry size of a section. -/
def entrySize : Nat → Nat
  | 0 => 32
  | 1 => 8
  | 2 => 16
  | 3 => 8
  | 4 => 16
  | 5 => 32
  | 6 => 16
  | 7 => 16
  | _ => 8
/-- 10, Formats: the size of a ROUTE_PATCH entry. -/
def patchSize : Nat := 16

/-! ### Codes of the slot and the mirrors (10, Formats) -/

def orderStateCode : OrderState → Nat
  | .pending => 1
  | .assigned => 2
  | .chained => 3
  | .picking => 4
  | .carrying => 5
  | .placing => 6
/-- Order state FINISHED. -/
def finishedCode : Nat := 7
def resultCode : ResultCode → Nat
  | .completed => 1
  | .refused => 2
  | .cancelled => 3
  | .failed => 4
def reasonCode : Reason → Nat
  | .mapNotCommitted => 1
  | .badOperand => 2
  | .unknownLocation => 3
  | .stationClosed => 4
  | .sameLocation => 5
  | .noBuffer => 6
  | .sourceBusy => 7
  | .destBusy => 8
  | .vehicleState => 9
  | .pickupEmpty => 10
  | .portNotReady => 11
  | .hoistRefused => 12
  | .hoistFault => 13
  | .vehicleFault => 14
  | .vehicleLost => 15
  | .idMismatch => 16
  | .destOccupied => 17
  | .mapBusy => 18
  | .mapState => 19
  | .mapInconsistent => 20
  | .ordersLive => 21
  | .loadFault => 22
  | .collisionRisk => 23
  | .bayFull => 24
  | .notQuarantined => 25
  | .manualDisabled => 26
  | .noRoute => 27
  | .closePending => 28
  | .fleetActive => 29
def placeCode : Place → Nat
  | .none_ => 0
  | .source => 1
  | .destination => 2
  | .vehicle => 3
  | .unknown => 4
def logKindCode : LogKind → Nat
  | .strayPost => 1
  | .windowFault => 2
  | .linkFrame => 3
  | .unknownSource => 4
def vstateCode : VState → Nat
  | .offline => 0
  | .idle => 1
  | .parking => 2
  | .toSource => 3
  | .loading => 4
  | .toDest => 5
  | .unloading => 6
  | .holding => 7
  | .manual => 8
  | .faulted => 9
  | .lost => 10
def faultCodeOf : FaultCode → Nat
  | .none_ => 0
  | .reported n => n
  | .noReply => 256
  | .authStale => 257
  | .hoistJam => 258
  | .silence => 259
def zoneLiveCode : ZoneLive → Nat
  | .opened => 0
  | .closing => 1
  | .closed => 2
def branchCode : Branch → Nat
  | .a => 0
  | .b => 1
def convoyCode : Convoy → Nat
  | .inactive => 0
  | .running => 1
  | .expired => 2
def rawCode : Option Raw → Nat
  | none => 0
  | some .absent => 1
  | some .present => 2
def senseCode : Option Sense → Nat
  | none => 0
  | some .empty => 1
  | some .present => 2
  | some .ambiguous => 3
def logicalCode : Logical → Nat
  | .free => 0
  | .reservedDrop => 1
  | .reservedPick => 2
/-- A section code and an entry index (10, Formats, MAP_INCONSISTENT and LOAD_FAULT). -/
def sectionDetail (sec idx : Nat) : Nat := sec * 16777216 + idx % 16777216

/-! ### Records as bytes: lists of (offset, bytes) -/

/-- Slot offsets 64 to 95. -/
def progressParts (p : Progress) : List (Nat × List Byte) :=
  [(64, leBytes 1 p.state ++ leBytes 1 p.flags ++ orNone p.vehicle ++ orNone p.shelf ++
      leBytes 1 (bit p.taken.isSome 0 + bit p.assigned.isSome 1 + bit p.loaded.isSome 2 + bit p.ended.isSome 3)),
   (72, optTime 72 p.taken ++ optTime 76 p.assigned ++ optTime 80 p.loaded ++ optTime 84 p.ended ++ leBytes 8 p.seq.toNat)]
/-- The reason byte of a result: of one without a reason, COMPLETED or CANCELLED (03 R64), free, for 10, Formats, has no code
for none. DESIGN CHOICE (log 40). -/
def reasonByte : Option Reason → List Byte
  | some r => leBytes 1 (reasonCode r)
  | none => fill 97 1
/-- Slot offsets 96 to 147. -/
def resultParts (f : Final) : List (Nat × List Byte) :=
  [(96, leBytes 1 (resultCode f.code) ++ reasonByte f.reason ++ leBytes 2 f.flags ++
      leBytes 4 f.detail ++ leBytes 1 (placeCode f.place) ++ leBytes 1 ((f.readId.map List.length).getD 0) ++
      orNone f.vehicle ++ orNone f.dest),
   (112, padTo 112 32 (f.readId.getD []) ++ leBytes 4 f.tag.toNat)]
/-- The state TAKEN, and the state DONE. -/
def takenPart : List (Nat × List Byte) := [(0, [2])]
def donePart : List (Nat × List Byte) := [(0, [3])]

/-- The flags of a MOVE (10, Formats, slot offset 65). -/
def orderFlags (r : OrderRec) : Nat := bit r.classClamped 0 + bit r.cancelTooLate 1 + bit r.shelfChosen 2
/-- The progress of a live MOVE (03 R53). -/
def moveProgress (state : Nat) (r : OrderRec) : Progress :=
  { state := state, flags := orderFlags r, vehicle := r.vehicle, shelf := r.chosen, taken := r.taken, assigned := r.assigned,
    loaded := r.loaded, ended := r.ended, seq := r.seq }
/-- The progress of a directive (10 R188). -/
def dirProgress (seq : BitVec 64) (taken : Time) (ended : Option Time) : Progress :=
  { state := 0, flags := 0, vehicle := none, shelf := none, taken := some taken, assigned := none, loaded := none,
    ended := ended, seq := seq }
/-- The progress of a live order. -/
def liveProgress : Live → Progress
  | .move r => moveProgress (orderStateCode r.state) r
  | .directive d => dirProgress d.seq d.taken none

/-- Vehicle mirror contents from offset 2 (10, Formats). -/
def vehicleParts (s : State) (v : Nat) : List (Nat × List Byte) :=
  let r := veh s v
  let node := match r.pos with
    | some p => match p.standing with
      | some n => some n
      | none => segFrom s p.segment
    | none => none
  let moving := r.pos.any (fun p => p.standing.isNone)
  [(2, leBytes 1 (vstateCode r.state) ++
      leBytes 1 (bit r.uncertain 0 + bit r.quarantined 1 + bit r.retiring 2 + bit r.circulating 3 + bit moving 4) ++
      leBytes 1 r.pool),
   (6, leBytes 2 (faultCodeOf r.fault) ++ orNone node ++ orNone (r.pos.map (fun p => p.segment)) ++
      optTime 12 (if moving then r.pos.map (fun p => p.entry) else none) ++
      orNone r.lastNode ++ orNone r.target ++ orNone (limitOf s r) ++ orNone r.park ++ orNone r.current ++ orNone r.chained ++
      leBytes 1 r.path.length),
   (32, padTo 32 64 (r.path.flatMap (leBytes 2)))]

/-- The arbiter of a merge zone. -/
def zoneArbiter (s : State) (z : Nat) : Option Arbiter := match zoneAt s z with
  | some e => if isMerge e then tget none s.arbiters e.merge else none
  | none => none

/-- Zone mirror contents from offset 2; while the map is not COMMITTED no zone is shown defined (01 R13, 10 Formats). -/
def zoneParts (s : State) (z : Nat) : List (Nat × List Byte) :=
  let kind := if committed s then ((zoneAt s z).map (fun e => e.kind)).getD 0 else 0
  let r := zoneRec s z
  let w1 := r.waiters[0]?
  let w2 := r.waiters[1]?
  let arb := zoneArbiter s z
  [(2, leBytes 1 kind ++ leBytes 1 (zoneLiveCode r.live) ++ orNone r.holder ++ orNone r.closingOrder ++
      leBytes 1 (bit r.stall 0) ++ leBytes 1 r.waiters.length ++ orNone (w1.map (fun w => w.vehicle)) ++
      optTime 12 (w1.map (fun w => w.since)) ++ orNone (w2.map (fun w => w.vehicle)) ++
      leBytes 1 (bit (w1.any (fun w => w.stalled)) 0 + bit (w2.any (fun w => w.stalled)) 1)),
   (20, optTime 20 (w2.map (fun w => w.since)))] ++
  (match arb with
   | some a => [(24, leBytes 1 (branchCode a.favour) ++ leBytes 1 (convoyCode a.convoy)), (28, leBytes 4 a.start.toNat)]
   | none => [])

/-- Shelf mirror contents from offset 2; a record that is no defined SHELF carries that mark and nothing else (10 R195). -/
def shelfParts (s : State) (st : Nat) : List (Nat × List Byte) :=
  if committed s && isShelf s st then
    let h := shelfAt s st
    [(2, leBytes 1 1 ++ leBytes 1 (rawCode h.raw) ++ leBytes 1 (senseCode h.inferred) ++ leBytes 1 (senseCode h.pending) ++
        leBytes 1 (senseCode h.sensed) ++ leBytes 1 (logicalCode h.logical) ++ orNone h.reserving ++
        leBytes 1 (bit h.placed 0) ++ leBytes 1 (bit (stationClosed s st) 0))]
  else [(2, leBytes 1 0)]

/-- Status block contents from offset 2 (10 R196, Formats). -/
def statusParts (s : State) : List (Nat × List Byte) :=
  let l := s.win.log
  [(2, leBytes 1 ((l.map (fun r => logKindCode r.kind)).getD 0) ++ leBytes 1 (bit (l.any (fun r => r.more)) 0) ++
      (match l with
       | some r => leBytes 4 r.detail
       | none => fill 4 4) ++ optTime 8 (l.map (fun r => r.time))),
   (16, (List.range 64).flatMap (fun b => leBytes 1 (occupancy s b)))]

/-! ### Trackside frames (08 R152, 10 Formats) -/

/-- One bit of the CRC-16 register with polynomial x^16 + x^12 + x^5 + 1. -/
def crcBit (c : BitVec 16) : BitVec 16 := if c.getLsbD 15 then (c <<< 1) ^^^ 0x1021 else c <<< 1
/-- One byte enters the register, most significant bit first. -/
def crcByte (c : BitVec 16) (b : Byte) : BitVec 16 :=
  crcBit (crcBit (crcBit (crcBit (crcBit (crcBit (crcBit (crcBit (c ^^^ ((b.setWidth 16) <<< 8)))))))))
/-- The frame check of bytes: register preset to ones, nothing reflected or XORed at the end (08 R152). -/
def crc16 (bs : List Byte) : BitVec 16 := bs.foldl crcByte 0xFFFF

/-- A frame's bytes: address, kind, payload length, payload, check. -/
def frameBytes (addr kind : Nat) (payload : List Byte) : List Byte :=
  let body := beBytes 2 addr ++ leBytes 1 kind ++ leBytes 1 payload.length ++ payload
  body ++ beBytes 2 (crc16 body).toNat

def hoistKindCode : HoistKind → Nat
  | .load => 1
  | .unload => 2

/-- An outbound frame as bytes (08 R153). -/
def outBytes (v : Nat) : OutFrame → List Byte
  | .grant path limit => frameBytes v 1 (leBytes 1 path.length ++ path.flatMap (beBytes 2) ++ beBytes 2 limit)
  | .hoist e =>
    frameBytes v 2 (leBytes 1 e.tag.toNat ++ leBytes 1 (hoistKindCode e.kind) ++ beBytes 2 e.station ++ beBytes 3 e.code ++
      leBytes 1 ((e.carrier.map List.length).getD 0) ++ e.carrier.getD [])
  | .stand => frameBytes v 3 []

/-- An inbound frame's address, kind and payload fields, as received (08 R154). -/
inductive InFrame where
  | pass (addr node held : Nat)
  | arrive (addr node held : Nat)
  | hoistReply (addr tag answer : Nat)
  | hoistEnd (addr tag outcome : Nat) (id : List Byte)
  | status (addr cond code load held : Nat)
  | scan (addr seq first : Nat) (last : Bool) (rows : List Nat)
  deriving DecidableEq, Repr

/-- What reception makes of a frame: it is discarded with a log record, or it is whole (08 R155). -/
inductive Verdict where
  | discard (kind : LogKind) (detail : Nat)
  | whole (f : InFrame)
  deriving DecidableEq, Repr

def inAddr : InFrame → Nat
  | .pass a _ _ => a
  | .arrive a _ _ => a
  | .hoistReply a _ _ => a
  | .hoistEnd a _ _ _ => a
  | .status a _ _ _ _ => a
  | .scan a _ _ _ _ => a
/-- 10, Formats: the kind codes a vehicle or a concentrator may send. -/
def inKind : InFrame → Nat
  | .pass _ _ _ => 0x11
  | .arrive _ _ _ => 0x12
  | .hoistReply _ _ _ => 0x13
  | .hoistEnd _ _ _ _ => 0x14
  | .status _ _ _ _ _ => 0x15
  | .scan _ _ _ _ _ => 0x21

/-- 08 R155, test 2: the address is assigned, and sends this kind. -/
def sourceOk (addr kind : Nat) : Bool :=
  if addr < 256 then decide (0x11 ≤ kind) && decide (kind ≤ 0x15)
  else decide (addr < 320) && decide (kind = 0x21)
/-- 10, Formats: a held limit is a node or NONE. -/
def heldOk (h : Nat) : Bool := decide (h < 2048) || decide (h = 65535)
/-- 08 R155, test 4. -/
def fieldsOk : InFrame → Bool
  | .pass _ n h => decide (n < 2048) && heldOk h
  | .arrive _ n h => decide (n < 2048) && heldOk h
  | .hoistReply _ _ ans => decide (1 ≤ ans) && decide (ans ≤ 3)
  | .hoistEnd _ _ out id => decide (1 ≤ out) && decide (out ≤ 5) && decide (id.length ≤ 32)
  | .status _ cond code _ h =>
    ((decide (cond = 0) && decide (code = 0)) || (decide (cond = 1) && decide (code ≠ 0))) && heldOk h
  | .scan _ _ first _ rows =>
    decide (first < 8) && decide (1 ≤ rows.length) && decide (first + rows.length ≤ 8)

/-- The tests of 08 R155 on a frame's address, kind and fields (tests 2 and 4). -/
def verdictOf (f : InFrame) : Verdict :=
  if !sourceOk (inAddr f) (inKind f) then .discard .unknownSource (frameDetail (inAddr f) (inKind f) 0)
  else if !fieldsOk f then .discard .linkFrame (frameDetail (inAddr f) (inKind f) 3)
  else .whole f

/-- 10, Formats: the payload length the kind requires, none where the payload cannot hold the count it follows from. -/
def requiredLength (kind : Nat) (p : List Byte) : Option Nat :=
  if kind = 0x11 || kind = 0x12 then some 4
  else if kind = 0x13 then some 2
  else if kind = 0x14 then (if p.length < 3 then none else some (3 + field p 2 1))
  else if kind = 0x15 then some 5
  else if kind = 0x21 then (if p.length < 3 then none else some (4 + field p 2 1))
  else none

/-- The fields of a payload whose kind and length have passed. -/
def parsePayload (addr kind : Nat) (p : List Byte) : InFrame :=
  if kind = 0x11 then .pass addr (fieldBE p 0 2) (fieldBE p 2 2)
  else if kind = 0x12 then .arrive addr (fieldBE p 0 2) (fieldBE p 2 2)
  else if kind = 0x13 then .hoistReply addr (field p 0 1) (field p 1 1)
  else if kind = 0x14 then .hoistEnd addr (field p 0 1) (field p 1 1) (p.drop 3)
  else if kind = 0x15 then .status addr (field p 0 1) (field p 1 1) (field p 2 1) (fieldBE p 3 2)
  else .scan addr (field p 0 1) (field p 1 1) (decide (field p 3 1 % 2 = 1)) ((p.drop 4).map (fun b => b.toNat))

/-- A header byte of a received frame; a frame too short to hold it leaves it free (log 14). -/
def headerByte (bs : List Byte) (i : Nat) : Nat := (bs[i]?.getD (Config.missingByte i)).toNat

/-- The four tests of 08 R155 on the bytes received. Fewer bytes than the shortest frame, 6, fail the check. The check is
the last two bytes received, also where the payload length byte says otherwise; such a frame then fails the length
test. DESIGN CHOICE (unsafe, log 14). -/
def examine (bs : List Byte) : Verdict :=
  let addr := (headerByte bs 0 * 256 + headerByte bs 1) % 512
  let kind := headerByte bs 2
  let body := bs.take (bs.length - 2)
  let payload := body.drop 4
  if bs.length < 6 || !decide ((crc16 body).toNat = beNat (bs.drop (bs.length - 2))) then .discard .linkFrame (frameDetail addr kind 1)
  else if !sourceOk addr kind then .discard .unknownSource (frameDetail addr kind 0)
  else if !decide (payload.length = headerByte bs 3) || !decide (requiredLength kind payload = some payload.length) then
    .discard .linkFrame (frameDetail addr kind 2)
  else verdictOf (parsePayload addr kind payload)

end Sys2Proof.Machine
end

