-- ==== Sys2Proof/Machine/Link.lean ====
section
/-! DEFINITION. Trackside Link (08): the outbound queues, hands of HOISTs, and what ends a cycle's traffic. -/

namespace Sys2Proof.Machine

/-- Puts an entry into a queue: in the place of the address's entry, or at the end (08 R158, R159). -/
def enqueue {α : Type} (v : Nat) (e : α) : List (Nat × α) → List (Nat × α)
  | [] => [(v, e)]
  | (w, x) :: q => if w = v then (v, e) :: q else (w, x) :: enqueue v e q
/-- Removes an address's entry. -/
def dequeue {α : Type} (v : Nat) (q : List (Nat × α)) : List (Nat × α) := q.filter (fun p => !decide (p.1 = v))
/-- Whether an address has an entry. -/
def queued {α : Type} (v : Nat) (q : List (Nat × α)) : Bool := q.any (fun p => decide (p.1 = v))

/-- Queues a GRANT for a vehicle: not in ASSEMBLY (08 R158), not under LINK_HOLD (R168). -/
def queueGrant (v : Nat) (s : State) : State :=
  if s.tsl.linkHold || !decide (s.flt.phase = .operating) then s
  else { s with tsl := { s.tsl with grantQueue := enqueue v true s.tsl.grantQueue } }
/-- Queues a STAND for a vehicle address: not under LINK_HOLD (08 R168). -/
def queueStand (v : Nat) (s : State) : State :=
  if s.tsl.linkHold then s else { s with tsl := { s.tsl with grantQueue := enqueue v false s.tsl.grantQueue } }

/-- The location code of a station, as a HOIST entry carries it (08 R159). -/
def stationCode (s : State) (st : Nat) : Nat := ((stationAt s st).map (fun e => e.code)).getD 0
/-- The HOIST entry of a cycle under a tag (08 R159). -/
def hoistEntry (s : State) (tag : BitVec 8) (h : HoistCycle) : HoistEntry :=
  { tag := tag, kind := h.kind, station := h.station, code := stationCode s h.station, carrier := h.carrier }
/-- Queues the HOIST of a vehicle's cycle under its present tag (08 R159); not under LINK_HOLD (R168). -/
def queueHoist (v : Nat) (s : State) : State := match (veh s v).hoist with
  | none => s
  | some h =>
    if s.tsl.linkHold then s
    else { s with tsl := { s.tsl with hoistQueue := enqueue v (hoistEntry s (linkAt s v).tag h) s.tsl.hoistQueue } }
/-- FLT hands TSL the HOIST of a vehicle's cycle: the send count returns to 0, a new cycle takes the next tag (08 R159). -/
def handHoist (v : Nat) (newCycle : Bool) (s : State) : State :=
  queueHoist v (modLink v (fun l => { l with sends := 0, tag := if newCycle then l.tag + 1 else l.tag }) s)

/-- A HOIST in transmission for the vehicle will start no reply wait (08 R157, R159, R166). -/
def voidHoist (v : Nat) (s : State) : State := match s.tsl.tx with
  | some t => match t.frame with
    | .hoist _ => if t.vehicle = v then { s with tsl := { s.tsl with tx := some { t with noWait := true } } } else s
    | _ => s
  | none => s
/-- A hoist cycle ends: TSL drops its queued HOIST and stops its reply wait (05 R107, 08 R159). -/
def dropHoist (v : Nat) (s : State) : State :=
  let s1 : State := { s with tsl := { s.tsl with hoistQueue := dequeue v s.tsl.hoistQueue } }
  voidHoist v (modLink v (fun l => { l with replyWait := none }) s1)
/-- Ends a vehicle's hoist cycle, if it has one (05 R107). -/
def endCycle (v : Nat) (s : State) : State := match (veh s v).hoist with
  | none => s
  | some _ => dropHoist v (modVeh v (fun r => { r with hoist := none }) s)
/-- The link side of a record that takes its empty form (08 R157). -/
def clearLink (v : Nat) (s : State) : State :=
  voidHoist v (putLink v {} { s with tsl := { s.tsl with
    grantQueue := dequeue v s.tsl.grantQueue, hoistQueue := dequeue v s.tsl.hoistQueue } })

/-- Restarts a vehicle's silence timer (08 R166). -/
def restartSilence (v : Nat) (s : State) : State := modLink v (fun l => { l with silence := some s.clock }) s

end Sys2Proof.Machine
end

