-- ==== Sys2Proof/Machine/Orders.lean ====
section
/-! DEFINITION. Order Table (03): taking a slot, ending and re-pending orders, results. -/

namespace Sys2Proof.Machine

/-- What INK gives an order when it takes its slot (10 R191). -/
structure Taking where
  slot : Nat
  tag : BitVec 32
  seq : BitVec 64
  time : Time
  deriving DecidableEq, Repr

/-! ### Results (03 R64, 10 R188) -/

def slotDueAt (s : State) (k : Nat) : SlotDue := tget {} s.win.slotDue k
def putSlotDue (k : Nat) (d : SlotDue) (s : State) : State :=
  { s with win := { s.win with slotDue := tset {} s.win.slotDue k d } }
/-- Owes a slot its result and DONE; TAKEN is then never written (10 R188). -/
def oweFinal (k : Nat) (f : Final) (s : State) : State := putSlotDue k { taken := false, final := some f } s
/-- Owes a slot the state TAKEN. A result of an earlier order still owed under HOLD is not written any more: the deferred
write carries the record's values as they stand when it is made (10 R193). -/
def oweTaken (k : Nat) (s : State) : State := putSlotDue k { taken := true, final := none } s

/-- The result of a directive. -/
def dirFinal (t : Taking) (now : Time) (code : ResultCode) (reason : Option Reason) (detail flags : Nat) : Final :=
  { progress := dirProgress t.seq t.time (some now), code := code, reason := reason, flags := flags, detail := detail,
    place := .none_, readId := none, vehicle := none, dest := none, tag := t.tag }
/-- Ends a directive within the event that takes its slot (10 R188). -/
def endNow (t : Taking) (code : ResultCode) (reason : Option Reason) (detail flags : Nat) (s : State) : State :=
  oweFinal t.slot (dirFinal t s.clock code reason detail flags) s
/-- A directive ends COMPLETED, or REFUSED with a reason. -/
def completeNow (t : Taking) (flags : Nat) (s : State) : State := endNow t .completed none 0 flags s
def refuseNow (t : Taking) (reason : Reason) (s : State) : State := endNow t .refused (some reason) 0 0 s

/-- Makes a directive live: its slot stays TAKEN. -/
def keepDirective (t : Taking) (kind : Nat) (s : State) : State :=
  oweTaken t.slot (putLive t.slot (some (.directive { kind := kind, tag := t.tag, seq := t.seq, taken := t.time })) s)
/-- Ends a live directive: its record goes, its slot is owed the result. -/
def endDirective (k : Nat) (code : ResultCode) (reason : Option Reason) (detail flags : Nat) (s : State) : State :=
  match liveAt s k with
  | some (.directive d) =>
    oweFinal k (dirFinal { slot := k, tag := d.tag, seq := d.seq, time := d.taken } s.clock code reason detail flags)
      (putLive k none s)
  | _ => s

/-- The result of a MOVE (03 R64). -/
def moveFinal (r : OrderRec) (code : ResultCode) (reason : Option Reason) (detail : Nat) (place : Place) : Final :=
  { progress := moveProgress finishedCode r, code := code, reason := reason, flags := orderFlags r, detail := detail,
    place := place, readId := r.readId, vehicle := r.vehicle, dest := destStation r, tag := r.tag }

/-! ### Reservations and vehicles of an order -/

/-- Releases every shelf reserved for an order (03 R62, R63; 09 R177). -/
def freeShelves (k : Nat) (s : State) : State :=
  ((s.buf.shelves.filter (fun p => decide (p.2.reserving = some k))).map (fun p => p.1)).foldl
    (fun t st => putShelf st { shelfAt t st with logical := .free, reserving := none } t) s
/-- Releases a shelf's RESERVED_PICK (03 R58). -/
def freePick (st : Nat) (s : State) : State :=
  if (shelfAt s st).logical = .reservedPick then putShelf st { shelfAt s st with logical := .free, reserving := none } s else s
/-- Takes an order from the vehicle that holds it as current (its hoist cycle ends with it) or chained. -/
def unlinkOrder (k : Nat) (v : Option Nat) (s : State) : State := match v with
  | none => s
  | some v =>
    let s1 := if (veh s v).current = some k then endCycle v (modVeh v (fun r => { r with current := none }) s) else s
    if (veh s1 v).chained = some k then modVeh v (fun r => { r with chained := none }) s1 else s1

/-- A live MOVE reaches FINISHED (03 R63): claims go with the record, reservations are released, the vehicle no longer
holds it, and the slot is owed the result. The vehicle's next state is the caller's. -/
def finishOrder (k : Nat) (code : ResultCode) (reason : Option Reason) (place : Place) (s : State) : State :=
  match orderAt s k with
  | none => s
  | some r =>
    let s1 := oweFinal k (moveFinal { r with ended := some s.clock } code reason 0 place) (freeShelves k s)
    let s2 := putLive k none (unlinkOrder k r.vehicle s1)
    if s2.dsp.order = some k then evaluationEnds s2 else s2

/-- A live MOVE re-pends (03 R62). -/
def repend (k : Nat) (s : State) : State := match orderAt s k with
  | none => s
  | some r =>
    let s1 := unlinkOrder k r.vehicle (freeShelves k s)
    putOrder k { r with state := .pending, stale := false, vehicle := none, assigned := none, chosen := none,
                        shelfChosen := false } s1

/-- A vehicle's chained order, if it has one, re-pends (03 R55, R61). -/
def rependChained (v : Nat) (s : State) : State := match (veh s v).chained with
  | some k => repend k s
  | none => s

/-- The node a MOVE's vehicle goes to with the carrier: its destination station's or its chosen shelf's. -/
def destNode (s : State) (r : OrderRec) : Option Nat := (destStation r).bind (stationNode s)
/-- The node of a MOVE's source station. -/
def sourceNode (s : State) (r : OrderRec) : Option Nat := match r.source with
  | .station st => stationNode s st
  | .vehicle _ => none

end Sys2Proof.Machine
end

