-- ==== Sys2Proof/Machine/Access.lean ====
section
/-! DEFINITION. The host window: its registers, its address test, and where the layout puts each record (10 R185). -/

namespace Sys2Proof.Machine

/-- A word with bits 19:0 cleared. -/
def upperBits (w : BitVec 64) : BitVec 64 := (w >>> 20) <<< 20
/-- The base and the range enable of WINDOW_BASE (10, Formats). -/
def baseOf (s : State) : BitVec 64 := upperBits s.win.windowBase
def rangeEnable (s : State) : Bool := s.win.windowBase.getLsbD 0

/-- Whether an address lies in the window (10 R185). -/
def inWindow (s : State) (a : Nat) : Bool :=
  rangeEnable s && decide ((BitVec.ofNat 64 a) &&& s.win.windowMask = baseOf s)
/-- The window address of an offset. -/
def windowAddr (s : State) (off : Nat) : Nat := addrAdd (baseOf s).toNat off
/-- Whether an access of `n` bytes at an offset lies in the window: its first and its last byte do. -/
def accessOk (s : State) (off n : Nat) : Bool := inWindow s (windowAddr s off) && inWindow s (windowAddr s (off + n - 1))

/-- The window sizes as powers of two (10 R185). -/
def sizePowers : List Nat := (List.range 9).map (fun i => 20 + i)
/-- The window's size, if its mask is valid: its zero bits are one run from bit 0 of 20 to 28 bits (10 R185). -/
def windowSize (s : State) : Option Nat :=
  (sizePowers.find? (fun k => decide (s.win.windowMask.toNat + 2 ^ k = 2 ^ 64))).map (fun k => 2 ^ k)
/-- START check 1: the window registers are valid (10 R185). -/
def registersValid (s : State) : Bool := (windowSize s).isSome && decide (baseOf s &&& s.win.windowMask = baseOf s)

/-! ### Layout -/

/-- The slot count N, 0 while no layout is recorded. -/
def slotCount (s : State) : Nat := (s.win.layout.map (fun l => l.n)).getD 0
/-- The window offset of a record (10, Formats). -/
def recordOffset (l : Layout) : WinRec → Nat
  | .slot k => l.orderTable + 256 * k
  | .vehicle v => l.vehicleMirror + 128 * v
  | .zone z => l.zoneMirror + 32 * z
  | .shelf st => l.shelfMirror + 16 * st
  | .status => l.statusBlock
/-- The size of a record (10, Formats). -/
def recordSize : WinRec → Nat
  | .slot _ => 256
  | .vehicle _ => 128
  | .zone _ => 32
  | .shelf _ => 16
  | .status => 256
/-- The window offset of a place in the staging area. -/
def stagingOffset (s : State) (off : Nat) : Nat := (s.win.layout.map (fun l => l.staging)).getD 0 + off
def stagingSize (s : State) : Nat := (s.win.layout.map (fun l => l.stagingSize)).getD 0

/-- Logs an abandoned access (10 R185, R198). -/
def logFault (cause off : Nat) (s : State) : State := logError .windowFault (faultDetail cause off) s

end Sys2Proof.Machine
end

