-- ==== Sys2Proof/Machine/Merge.lean ====
section
/-! DEFINITION. Merge Arbiters (07): claimants, awards, the convoy timer, parking. -/

namespace Sys2Proof.Machine

def arbiterAt (s : State) (m : Nat) : Option Arbiter := tget none s.arbiters m
def putArbiter (m : Nat) (a : Option Arbiter) (s : State) : State := { s with arbiters := tset none s.arbiters m a }

/-- A claimant's branch: the one whose predecessor zone holds the segment that ends at its limit (06 R124). -/
def branchOf (s : State) (m v : Nat) : Branch :=
  match limitSegment (veh s v), mergeAt s m with
  | some k, some e => if segZone s k = some e.predA then .a else .b
  | _, _ => .b

/-- Whether a vehicle is hot: TO_SOURCE or TO_DEST with a current order of class 3 (07 R144). -/
def hot (s : State) (v : Nat) : Bool :=
  let r := veh s v
  (decide (r.state = .toSource) || decide (r.state = .toDest)) &&
    (match r.current.bind (orderAt s) with
     | some o => decide (o.cls = 3)
     | none => false)

/-- The claimant an award goes to (07 R146, R147): the only one; the one hot one; the other branch's against an
expired convoy; else the favoured branch's. -/
def winner (s : State) (m : Nat) (a : Arbiter) (cs : List Nat) : Option Nat :=
  match cs with
  | [c] => some c
  | _ => match cs.filter (hot s) with
    | [h] => some h
    | _ =>
      let other := cs.find? (fun c => !decide (branchOf s m c = a.favour))
      let favoured := cs.find? (fun c => decide (branchOf s m c = a.favour))
      ((if a.convoy = .expired then other else favoured).orElse (fun _ => cs.head?))

/-- Starts or restarts the convoy timer (07 R143): with a limit of 0 the convoy is EXPIRED at once. -/
def startConvoy (now : Time) (a : Arbiter) : Arbiter :=
  { a with start := now, convoy := if a.limit = 0 then .expired else .running }

/-- The arbiter after an award to a branch (07 R145). -/
def awarded (now : Time) (b : Branch) (a : Arbiter) : Arbiter :=
  if b = a.favour then (if a.convoy = .inactive then startConvoy now a else a)
  else startConvoy now { a with favour := b }

/-- The arbiter after a no-claimant notice (07 R148), and after a warm reset (R151). An INACTIVE convoy's start is not
consulted: it stays, and the zone mirror shows it. DESIGN CHOICE (unsafe, log 47). -/
def parked (a : Arbiter) : Arbiter := { a with favour := a.park, convoy := .inactive }

/-- An award: the winner, and the arbiter brought up to date (07 R145). -/
def award (m : Nat) (cs : List Nat) (s : State) : Option Nat × State := match arbiterAt s m with
  | none => (cs.head?, s)
  | some a => match winner s m a cs with
    | none => (none, s)
    | some w => (some w, putArbiter m (some (awarded s.clock (branchOf s m w) a)) s)

/-- The no-claimant notice (07 R148). -/
def parkMerge (m : Nat) (s : State) : State := match arbiterAt s m with
  | some a => putArbiter m (some (parked a)) s
  | none => s

/-- The convoy limit of a RUNNING convoy has run: EXPIRED, and nothing else (07 R143). -/
def convoyExpires (m : Nat) (s : State) : State := match arbiterAt s m with
  | some a =>
    if a.convoy = .running ∧ a.limit ≤ elapsed s.clock a.start then putArbiter m (some { a with convoy := .expired }) s else s
  | none => s

end Sys2Proof.Machine
end

