-- ==== Sys2Proof/Machine/Routes.lean ====
section
/-! DEFINITION. Route Unit (02): the next segment, route walks, ETAs, and traversal learning. -/

namespace Sys2Proof.Machine

/-- The loop-next segment of a node (01 R4). -/
def loopNext (s : State) (n : Nat) : Option Nat := (nodeAt s n).map (fun e => e.loopNext)
/-- The next segment of the route entry for a node and a bay, if it is reachable (01 R10). -/
def routeNext (s : State) (n b : Nat) : Option Nat := (routeAt s n b).map (fun e => e.next)

/-- The next segment at a limit node towards a target node (02 R28); none where the path is complete or there is
NO_ROUTE. R27 limits a walk to 1,024 segments and R28 gives the next segment from one read: the next segment is answered
by R28 alone, however long the whole walk would be. DESIGN CHOICE (unsafe, log 51). -/
def nextSegment (s : State) (m g : Nat) : Option Nat :=
  if m = g then none
  else match homeBay s g with
    | none => none
    | some b => if homeBay s m = some b then loopNext s m else routeNext s m b

/-- The walk to `g` in bay `b` from the current node: the route part until a node of bay `b` is reached, then the loop
part (02 R26), at most `fuel` segments (R27). -/
def walkFrom (s : State) (g b : Nat) : Nat → Bool → Nat → Option (List Nat)
  | 0, _, n => if n = g then some [] else none
  | f + 1, inLoop, n =>
    if n = g then some []
    else
      let onLoop := inLoop || decide (homeBay s n = some b)
      match (if onLoop then loopNext s n else routeNext s n b) with
      | none => none
      | some k => match segTo s k with
        | none => none
        | some t => (walkFrom s g b f onLoop t).map (fun l => k :: l)

/-- The route walk from a node to a target node; none is NO_ROUTE (02 R26, R27). -/
def walk (s : State) (n g : Nat) : Option (List Nat) := match homeBay s g with
  | none => none
  | some b => walkFrom s g b Config.walkLimit false n

/-- The three times of a segment; zeros for one that has none (02 R25). -/
def timesOf (s : State) (k : Nat) : SegTimes := (tget none s.times k).getD ⟨0, 0, 0⟩
/-- An addition that saturates at the bound of ETAs (02 R30). -/
def satAdd (a b : Nat) : Nat := min (a + b) Config.etaLimit
/-- The sum of the learned times of a walk, on top of a time (02 R30). -/
def addWalk (s : State) (t : Nat) (ks : List Nat) : Nat := ks.foldl (fun acc k => satAdd acc (timesOf s k).learned) t

/-- The walk time from a node to a node (02 R30). -/
def walkTime (s : State) (n g : Nat) : Option Nat := (walk s n g).map (addWalk s 0)

/-- The ETA from a vehicle to a target node (02 R30, R31): remaining time on the current segment, then the walk. -/
def etaTo (s : State) (r : Vehicle) (g : Nat) : Option Nat := match r.pos with
  | none => none
  | some p => match p.standing with
    | some n => walkTime s n g
    | none => match segTo s p.segment with
      | none => none
      | some t => (walk s t g).map (addWalk s (satAdd 0 ((timesOf s p.segment).learned - elapsed s.clock p.entry)))

/-- The learned time after a measurement `t` (02 R36): the difference, an eighth of it rounded to nearest with halves
up, clamped to the floor and the upper bound. -/
def learn (learned floor t : Nat) : Nat :=
  let d : Int := (t : Int) - (learned : Int)
  let next : Int := (learned : Int) + Int.fdiv (d + 4) 8
  (max (floor : Int) (min next (Config.timeLimit : Int))).toNat

/-- RTU takes a measurement for a segment (02 R36, R37); one for a map that is not COMMITTED is discarded. -/
def measure (k t : Nat) (s : State) : State :=
  if committed s then match tget none s.times k with
    | some x => { s with times := tset none s.times k (some { x with learned := learn x.learned x.floor t }) }
    | none => s
  else s

/-- The base time of a segment from its length and clamped speed (02 R25). -/
def baseTime (length speed : Nat) : Nat := min Config.timeLimit ((length * 1000 + speed - 1) / speed)
/-- The three times MAP_COMMIT sets (01 R22, 02 R25). -/
def freshTimes (e : SegmentEntry) : SegTimes :=
  let t0 := baseTime e.length e.speed
  { base := t0, learned := t0, floor := max 1 (t0 / 2) }

end Sys2Proof.Machine
end

