-- ==== Sys2Proof/Machine/Blocks.lean ====
section
/-! DEFINITION. Block Control (06): extension attempts, requests, grants, releases, waits and closures. -/

namespace Sys2Proof.Machine

/-! ### Conditions -/

/-- The bay condition of a vehicle for a zone (06 R124). -/
def bayCondition (s : State) (v z : Nat) : Bool := match zoneBay s z with
  | some b => holdsBay s v b || decide (occupancy s b < capacityOf s b)
  | none => false

/-- Conditions 1 to 3 of 06 R121. -/
def mayExtend (s : State) (v : Nat) : Bool :=
  let r := veh s v
  decide (s.flt.phase = .operating) && r.target.isSome && !decide (limitOf s r = r.target) && !r.uncertain && !r.retiring

/-- The zones a vehicle holds ahead of its position zone (06 R121, condition 5). -/
def zonesAhead (s : State) (v : Nat) : List Nat :=
  (zonesHeld s v).filter (fun z => !decide (positionZone s (veh s v) = some z))

/-- The next segment at a vehicle's authority limit towards its route target (02 R28). -/
def nextAtLimit (s : State) (v : Nat) : Option Nat :=
  let r := veh s v
  match limitOf s r, r.target with
  | some m, some g => nextSegment s m g
  | _, _ => none

/-! ### Paths and grants -/

/-- Appends next segments from a node while they lie in a zone, the path holds fewer than 32, and the new limit is not
the target (06 R123, R125). -/
def extendPath (s : State) (g z : Nat) : Nat → Nat → List Nat → List Nat
  | 0, _, p => p
  | f + 1, m, p => match nextSegment s m g with
    | none => p
    | some k =>
      if segZone s k = some z ∧ p.length < Config.pathLimit then
        match segTo s k with
        | some t => extendPath s g z f t (p ++ [k])
        | none => p
      else p

/-- Extends a vehicle's path inside a zone it holds and has TSL queue its GRANT. -/
def extendIn (v z : Nat) (s : State) : State :=
  let r := veh s v
  match limitOf s r, r.target with
  | some m, some g => queueGrant v (putVeh v { r with path := extendPath s g z Config.pathLimit m r.path } s)
  | _, _ => s

/-- Removes a vehicle's wait from a zone; the stall flag is recomputed (06 R125, R127, R138). -/
def removeWait (v z : Nat) (s : State) : State :=
  let r := zoneRec s z
  let ws := r.waiters.filter (fun w => !decide (w.vehicle = v))
  putZone z { r with waiters := ws, stall := if ws = r.waiters then r.stall else stallOf ws } s

/-- Makes a vehicle the holder of a zone; its wait there ends (06 R125, steps 1 and 2). -/
def takeZone (v z : Nat) (s : State) : State :=
  let s1 := removeWait v z s
  putZone z { zoneRec s1 z with holder := some v } s1

/-- A grant (06 R125), after which the vehicle's attempt goes on. -/
def grant (v z : Nat) (s : State) : State := push [.attempt v] (extendIn v z (takeZone v z s))

/-- Whether a holder is IDLE and standing, without UNCERTAIN or the retiring mark (05 R116). -/
def nudgeable (r : Vehicle) : Bool :=
  decide (r.state = .idle) && (standingAt r).isSome && !r.uncertain && !r.retiring

/-- Appends a vehicle to a zone's waiters (06 R126); an IDLE standing holder is nudged. -/
def appendWaiter (v z : Nat) (s : State) : State :=
  let r := zoneRec s z
  let s1 := putZone z { r with waiters := r.waiters ++ [{ vehicle := v, since := s.clock }] } s
  match r.holder with
  | some h => if nudgeable (veh s h) then push [.nudge h] s1 else s1
  | none => s1

/-- Awards a free merge zone among claimants; the winner is granted it. -/
def awardZone (m z : Nat) (cs : List Nat) (s : State) : Option Nat × State := match award m cs s with
  | (some w, s1) => (some w, grant w z s1)
  | (none, s1) => (none, s1)

/-- A request (06 R124). -/
def request (v z : Nat) (s : State) : State :=
  let r := zoneRec s z
  if r.live ≠ .opened ∨ r.holder.isSome then appendWaiter v z s
  else match zoneAt s z with
    | none => s
    | some e =>
      if isMerge e then
        let cs := (r.waiters.map (fun w => w.vehicle) ++ [v]).filter (fun c => bayCondition s c z)
        if cs = [] then appendWaiter v z s
        else match awardZone e.merge z cs s with
          | (w, s1) => if w = some v then s1 else appendWaiter v z s1
      else if bayCondition s v z then grant v z s
      else appendWaiter v z s

/-- One step of an extension attempt (06 R121, R122, R123); a step that grants or continues asks for the next. -/
def attempt (v : Nat) (s : State) : State :=
  let r := veh s v
  if mayExtend s v && (waitingAt s v).isNone && decide ((zonesAhead s v).length < s.map.globals.lookahead) &&
      decide (r.path.length < Config.pathLimit) then
    match (nextAtLimit s v).bind (segZone s) with
    | none => s
    | some z =>
      if (zoneRec s z).holder = some v then
        if (limitSegment r).bind (segZone s) = some z then
          let s1 := extendIn v z s
          if (veh s1 v).path = r.path then s1 else push [.attempt v] s1
        else s
      else request v z s
  else s

/-- A wait is revised (06 R127). -/
def revise (v : Nat) (s : State) : State := match waitingAt s v with
  | none => s
  | some z =>
    if mayExtend s v && decide ((nextAtLimit s v).bind (segZone s) = some z) then s
    else push (.serve z true :: (if mayExtend s v then [.attempt v] else [])) (removeWait v z s)

/-- A zone's waiters are served (06 R129). -/
def serve (z : Nat) (waiting : Bool) (s : State) : State :=
  let r := zoneRec s z
  if r.live ≠ .opened ∨ r.holder.isSome ∨ (waiting = true ∧ r.waiters = []) then s
  else match zoneAt s z with
    | none => s
    | some e =>
      if isMerge e then
        let cs := (r.waiters.map (fun w => w.vehicle)).filter (fun c => bayCondition s c z)
        if cs = [] then parkMerge e.merge s else (awardZone e.merge z cs s).2
      else match r.waiters with
        | w :: _ => if bayCondition s w.vehicle z then grant w.vehicle z s else s
        | [] => s

/-- The bay's waits are re-examined, in increasing zone number (06 R130). -/
def reexamine (b : Nat) (s : State) : State :=
  push ((s.zones.filter (fun p => decide (zoneBay s p.1 = some b) && decide (p.2.live = .opened) && p.2.holder.isNone &&
    !decide (p.2.waiters = []))).map (fun p => .serve p.1 true)) s

/-- A zone is released by its holder (06 R128). -/
def release (v z : Nat) (s : State) : State :=
  let r := zoneRec s z
  if r.holder ≠ some v then s
  else
    let closing := decide (r.live = .closing)
    let s1 := putZone z { r with holder := none, live := if closing then .closed else r.live,
                                 closingOrder := if closing then none else r.closingOrder } s
    let s2 := match r.closingOrder with
      | some k => if closing then endDirective k .completed none 0 0 s1 else s1
      | none => s1
    let fell := match zoneBay s z with
      | some b => if occupancy s1 b < occupancy s b then [Task.reexamine b] else []
      | none => []
    push ((if r.live = .opened then [Task.serve z false] else []) ++ fell) s2

/-- A zone takes a vehicle as holder without a request; CLOSED becomes CLOSING (05 R97, R99; 06 R137). -/
def occupy (v z : Nat) (s : State) : State :=
  let r := zoneRec s z
  putZone z { r with holder := some v, live := if r.live = .closed then .closing else r.live } s

/-- The stall limit of a wait has run (06 R138). -/
def stallExpires (z v : Nat) (s : State) : State :=
  let r := zoneRec s z
  if r.waiters.any (fun w => decide (w.vehicle = v) && !w.stalled &&
      decide (s.map.globals.stallLimit * 1000 ≤ elapsed s.clock w.since)) then
    putZone z { r with stall := true, waiters := r.waiters.map (fun w => if w.vehicle = v then { w with stalled := true } else w) } s
  else s

/-- Extension attempts for every vehicle, by increasing number (06 R121). -/
def attemptAll (s : State) : List Task := (fleet s).map (fun p => .attempt p.1)
/-- Revisions for every vehicle, by increasing number (06 R127). -/
def reviseAll (s : State) : List Task := (fleet s).map (fun p => .revise p.1)

end Sys2Proof.Machine
end

