-- ==== Sys2Proof/Machine/MapChecks.lean ====
section
/-! DEFINITION. Location decoding (01 R9) and the eight checks of MAP_COMMIT (01 R17 to R21). -/

namespace Sys2Proof.Machine

/-! ### Location codes (01 R9) -/

/-- The station a location code decodes to, none where it is unknown. -/
def decodeCode (s : State) (code : Nat) : Option Nat :=
  let c := code % 16777216
  match (s.map.decodes.filterMap (fun p => p.2)).find? (fun e => decide (c &&& e.mask = e.base)) with
  | none => none
  | some e =>
    let off := c &&& (16777215 ^^^ e.mask)
    if off < e.count ∧ (stationAt s (e.first + off)).isSome then some (e.first + off) else none

/-! ### How a check reports -/

/-- A failing entry: its section code and its index. -/
abbrev Failure := Nat × Nat

/-- The first entry of a section that is not as it should be. -/
def firstBad {α : Type} (sec : Nat) (t : Table (Option α)) (ok : Nat → α → Bool) : Option Failure :=
  (t.find? (fun p => match p.2 with
    | some e => !ok p.1 e
    | none => false)).map (fun p => (sec, p.1))

/-- The first failure of a list of checks, in order. -/
def firstFailure : List (Option Failure) → Option Failure
  | [] => none
  | some f :: _ => some f
  | none :: l => firstFailure l

/-- Whether a route entry's pair is local: the node lies on the bay's loop (01 R10). -/
def isLocal (s : State) (i : Nat) : Bool := decide (homeBay s (i / 64) = some (i % 64))

/-! ### Check 1: range (01 R18) -/

def nodeInRange (_ : Nat) (e : NodeEntry) : Bool :=
  decide (e.homeBay = noBay) || (decide (e.homeBay < Config.bayCount) && decide (e.loopNext < Config.segmentCount))
def segmentInRange (_ : Nat) (e : SegmentEntry) : Bool :=
  decide (e.fromNode < Config.nodeCount) && decide (e.toNode < Config.nodeCount) && decide (e.zone < Config.zoneCount) &&
    decide (1 ≤ e.length)
def zoneInRange (_ : Nat) (e : ZoneEntry) : Bool :=
  decide (e.bay < Config.bayCount) && (decide (e.kind = 1) || (isMerge e && decide (e.merge < Config.mergeCount)))
def mergeInRange (_ : Nat) (e : MergeEntry) : Bool :=
  decide (e.zone < Config.zoneCount) && decide (e.predA < Config.zoneCount) && decide (e.predB < Config.zoneCount) &&
    decide (e.parkBranch ≤ 1)
def bayInRange (_ : Nat) (e : BayEntry) : Bool :=
  decide (e.entryNode < Config.nodeCount) && decide (e.parkCount ≤ 8) &&
    (e.parkNodes.take e.parkCount).all (fun n => decide (n < Config.nodeCount)) &&
    (!hasRack e || decide (e.firstShelf < Config.stationCount)) && decide (1 ≤ e.loopLength) &&
    decide (e.loopLength ≤ 16777215) && decide (1 ≤ e.capacity) && decide (e.capacity ≤ 64) && decide (e.rows ≤ 8) &&
    decide (e.cols ≤ 8) && (decide (e.rows = 0) == decide (e.cols = 0))
def stationInRange (_ : Nat) (e : StationEntry) : Bool :=
  decide (e.node < Config.nodeCount) && decide (e.bay < Config.bayCount) && decide (1 ≤ e.kind) && decide (e.kind ≤ 3) &&
    decide (e.initial ≤ 1)
/-- A decode entry in range. R18 bounds its first station by first station + station count alone, so an entry of station count 0
may hold 4,096 there, which R9's range for the field leaves out. DESIGN CHOICE (unsafe, log 57). -/
def decodeInRange (_ : Nat) (e : DecodeEntry) : Bool :=
  decide (e.bay < Config.bayCount) && decide (e.first + e.count ≤ Config.stationCount)
def routeInRange (s : State) (i : Nat) (e : RouteEntry) : Bool :=
  isLocal s i || (decide (e.next < Config.segmentCount) && decide (e.join < Config.nodeCount))

def check1 (s : State) : Option Failure := firstFailure
  [firstBad 1 s.map.nodes nodeInRange, firstBad 2 s.map.segments segmentInRange, firstBad 3 s.map.zones zoneInRange,
   firstBad 4 s.map.merges mergeInRange, firstBad 5 s.map.bays bayInRange, firstBad 6 s.map.stations stationInRange,
   firstBad 7 s.map.decodes decodeInRange, firstBad 8 s.map.routes (routeInRange s)]

/-! ### Check 2: existence (01 R18) -/

def nodeDefined (s : State) (n : Nat) : Bool := (nodeAt s n).isSome
def segDefined (s : State) (k : Nat) : Bool := (segAt s k).isSome
def zoneDefined (s : State) (z : Nat) : Bool := (zoneAt s z).isSome
def bayDefined (s : State) (b : Nat) : Bool := (bayAt s b).isSome
def stationDefined (s : State) (st : Nat) : Bool := (stationAt s st).isSome
/-- The defined segments of a zone. -/
def zoneSegments (s : State) (z : Nat) : List SegmentEntry :=
  s.map.segments.filterMap (fun p => match p.2 with
    | some e => if e.zone = z then some e else none
    | none => none)

def nodeRefs (s : State) (_ : Nat) (e : NodeEntry) : Bool :=
  decide (e.homeBay = noBay) || (bayDefined s e.homeBay && segDefined s e.loopNext)
def segmentRefs (s : State) (_ : Nat) (e : SegmentEntry) : Bool :=
  zoneDefined s e.zone && nodeDefined s e.fromNode && nodeDefined s e.toNode
def zoneRefs (s : State) (z : Nat) (e : ZoneEntry) : Bool :=
  bayDefined s e.bay && (!isMerge e || (mergeAt s e.merge).isSome) && !(zoneSegments s z).isEmpty
def mergeRefs (s : State) (_ : Nat) (e : MergeEntry) : Bool :=
  zoneDefined s e.zone && zoneDefined s e.predA && zoneDefined s e.predB
def bayRefs (s : State) (_ : Nat) (e : BayEntry) : Bool :=
  nodeDefined s e.entryNode && (e.parkNodes.take e.parkCount).all (nodeDefined s) && (!hasRack e || stationDefined s e.firstShelf)
def stationRefs (s : State) (_ : Nat) (e : StationEntry) : Bool := nodeDefined s e.node && bayDefined s e.bay
def decodeRefs (s : State) (_ : Nat) (e : DecodeEntry) : Bool := bayDefined s e.bay
def routeRefs (s : State) (i : Nat) (e : RouteEntry) : Bool :=
  isLocal s i || (segDefined s e.next && nodeDefined s e.join && bayDefined s (i % 64))

/-- Check 2 (01 R10, R18): the references of every entry, in section order. An undefined bay 0 is reported as section 5,
index 0, before the other bays: R17 names only the entry that holds a bad reference. DESIGN CHOICE (unsafe, log 52). -/
def check2 (s : State) : Option Failure := firstFailure
  [firstBad 1 s.map.nodes (nodeRefs s), firstBad 2 s.map.segments (segmentRefs s), firstBad 3 s.map.zones (zoneRefs s),
   firstBad 4 s.map.merges (mergeRefs s), (if bayDefined s 0 then none else some (5, 0)), firstBad 5 s.map.bays (bayRefs s),
   firstBad 6 s.map.stations (stationRefs s), firstBad 7 s.map.decodes (decodeRefs s), firstBad 8 s.map.routes (routeRefs s)]

/-! ### Check 3: zone structure (01 R6, R19; log 25) -/

/-- The predecessor zones of a zone (01 R6). -/
def predecessors (s : State) (z : Nat) : List Nat :=
  let starts := (zoneSegments s z).map (fun e => e.fromNode)
  uniq (s.map.segments.filterMap (fun p => match p.2 with
    | some e => if e.zone ≠ z ∧ starts.contains e.toNode then some e.zone else none
    | none => none))
def zoneShape (s : State) (z : Nat) (e : ZoneEntry) : Bool :=
  let ps := predecessors s z
  if isMerge e then
    match mergeAt s e.merge with
    | some m => decide (ps.length = 2) && decide (m.zone = z) && !decide (m.predA = m.predB) && ps.contains m.predA && ps.contains m.predB
    | none => false
  else decide (ps.length = 1)
def mergeNamed (s : State) (m : Nat) (_ : MergeEntry) : Bool :=
  decide ((s.map.zones.filter (fun p => match p.2 with
    | some e => isMerge e && decide (e.merge = m)
    | none => false)).length = 1)

def check3 (s : State) : Option Failure := firstFailure
  [firstBad 3 s.map.zones (zoneShape s), firstBad 4 s.map.merges (mergeNamed s)]

/-! ### Check 4: loops (01 R19) -/

def loopLengthOf (s : State) (b : Nat) : Nat := ((bayAt s b).map (fun e => e.loopLength)).getD 0
def loopPosOf (s : State) (n : Nat) : Nat := ((nodeAt s n).map (fun e => e.loopPos)).getD 0
def segLength (s : State) (k : Nat) : Nat := ((segAt s k).map (fun e => e.length)).getD 0
def nodeLoop (s : State) (n : Nat) (e : NodeEntry) : Bool :=
  match homeOf e, segAt s e.loopNext with
  | none, _ => true
  | some _, none => false
  | some b, some k =>
    decide (k.fromNode = n) && decide (homeBay s k.toNode = some b) &&
      decide (loopPosOf s k.toNode = (e.loopPos + k.length) % loopLengthOf s b) && decide (e.loopPos < loopLengthOf s b)

/-- Follows loop-next segments from `n` until `entry` is reached again: the nodes visited and the length, none where a
node repeats or a segment is missing. -/
def loopChain (s : State) (entry : Nat) : Nat → Nat → List Nat → Nat → Option (List Nat × Nat)
  | 0, _, _, _ => none
  | f + 1, n, seen, len => match (nodeAt s n).bind (fun e => segAt s e.loopNext) with
    | none => none
    | some k =>
      if k.toNode = entry then some (seen, len + k.length)
      else if seen.contains k.toNode then none
      else loopChain s entry f k.toNode (k.toNode :: seen) (len + k.length)
/-- The nodes of a bay's loop. -/
def nodesOfBay (s : State) (b : Nat) : List Nat :=
  s.map.nodes.filterMap (fun p => match p.2 with
    | some e => if homeOf e = some b then some p.1 else none
    | none => none)
def bayLoop (s : State) (b : Nat) (e : BayEntry) : Bool :=
  decide (homeBay s e.entryNode = some b) && decide (loopPosOf s e.entryNode = 0) &&
    (match loopChain s e.entryNode Config.nodeCount e.entryNode [e.entryNode] 0 with
     | some (seen, len) => decide (len = e.loopLength) && (nodesOfBay s b).all (fun n => seen.contains n)
     | none => false)

def check4 (s : State) : Option Failure := firstFailure
  [firstBad 1 s.map.nodes (nodeLoop s), firstBad 5 s.map.bays (bayLoop s)]

/-! ### Check 5: routes (01 R20) -/

def routeConsistent (s : State) (i : Nat) (e : RouteEntry) : Bool :=
  isLocal s i ||
    (match segAt s e.next with
     | none => false
     | some k =>
       decide (k.fromNode = i / 64) &&
         (if homeBay s k.toNode = some (i % 64) then decide (e.join = k.toNode) && decide (e.distance = k.length)
          else match routeAt s k.toNode (i % 64) with
            | some x => decide (e.distance = k.length + x.distance) && decide (e.join = x.join)
            | none => false))

def check5 (s : State) : Option Failure := firstBad 8 s.map.routes (routeConsistent s)

/-! ### Checks 6 to 8 (01 R21) -/

def decodeShape (s : State) (_ : Nat) (e : DecodeEntry) : Bool :=
  decide (e.base &&& e.mask = e.base) &&
    s.map.stations.all (fun p => match p.2 with
      | some x => !decide (e.first ≤ p.1) || !decide (p.1 < e.first + e.count) || decide (x.bay = e.bay)
      | none => true)
def stationShape (s : State) (st : Nat) (e : StationEntry) : Bool :=
  decide (decodeCode s e.code = some st) && decide (homeBay s e.node = some e.bay)
def check6 (s : State) : Option Failure := firstFailure
  [firstBad 7 s.map.decodes (decodeShape s), firstBad 6 s.map.stations (stationShape s)]

def bayZones (s : State) (b : Nat) : Nat :=
  (s.map.zones.filter (fun p => match p.2 with
    | some e => decide (e.bay = b)
    | none => false)).length
def capacityFits (s : State) (b : Nat) (e : BayEntry) : Bool := decide (e.capacity + 1 ≤ bayZones s b)
def check7 (s : State) : Option Failure := firstBad 5 s.map.bays (capacityFits s)

def shelfPlaced (s : State) (st : Nat) (e : StationEntry) : Bool :=
  !decide (e.kind = 3) ||
    (match bayAt s e.bay with
     | some b => hasRack b && decide (e.row < b.rows) && decide (e.col < b.cols) && decide (st = b.firstShelf + e.row * b.cols + e.col)
     | none => false)
def rackFilled (s : State) (b : Nat) (e : BayEntry) : Bool :=
  !hasRack e || (rackShelves e).all (fun st => isShelf s st && decide ((stationAt s st).map (fun x => x.bay) = some b))
def check8 (s : State) : Option Failure := firstFailure
  [firstBad 6 s.map.stations (shelfPlaced s), firstBad 5 s.map.bays (rackFilled s)]

/-- The eight checks, in order (01 R17). -/
def validate (s : State) : Option Failure := firstFailure
  [check1 s, check2 s, check3 s, check4 s, check5 s, check6 s, check7 s, check8 s]

end Sys2Proof.Machine
end

