-- ==== Sys2Proof/Machine/MapStore.lean ====
section
/-! DEFINITION. Map Store (01) and ROUTE_PATCH (02, section 2.6): the map directive queue and what runs at its head. -/

namespace Sys2Proof.Machine

/-! ### The queue (01 R11, R12) -/

/-- The kind code of a map directive (10, Formats). -/
def mapKind : MapOp → Nat
  | .opening => 2
  | .load _ _ _ _ => 3
  | .commit => 4
  | .patch _ _ => 5

def setRun (r : MapRun) (s : State) : State := { s with map := { s.map with run := r } }

/-- Intake sends a map directive to the queue; with 8 in it, it is refused MAP_BUSY (01 R11). -/
def takeMap (t : Taking) (op : MapOp) (s : State) : State :=
  if Config.mapQueueLimit ≤ s.map.queue.length then refuseNow t .mapBusy s
  else
    let s1 := keepDirective t (mapKind op) s
    let s2 : State := { s1 with map := { s1.map with queue := s1.map.queue ++ [{ slot := t.slot, op := op }] } }
    if s.map.queue = [] then push [.mapHead] s2 else s2

/-- The directive at the head ends; the next reaches the head (01 R11). -/
def endHead (code : ResultCode) (reason : Option Reason) (detail flags : Nat) (s : State) : State :=
  match s.map.queue with
  | [] => s
  | d :: q =>
    push [.mapHead] (endDirective d.slot code reason detail flags { s with map := { s.map with queue := q, run := .idle } })
def refuseHead (reason : Reason) (detail : Nat) (s : State) : State := endHead .refused (some reason) detail 0 s

/-- A cancel check on a map directive: one that waits is removed and ends CANCELLED, the head runs on (01 R12). -/
def cancelMap (k : Nat) (s : State) : State := match s.map.queue with
  | [] => s
  | d :: q =>
    if d.slot ≠ k ∧ q.any (fun e => decide (e.slot = k)) then
      endDirective k .cancelled none 0 0 { s with map := { s.map with queue := d :: q.filter (fun e => !decide (e.slot = k)) } }
    else s

/-! ### MAP_OPEN (01 R13) -/

/-- The map leaves COMMITTED: its live state is discarded (01 R13; 04 R90; 06 R141; 07 R151; 09 R182). -/
def discardLive (s : State) : State :=
  { s with map := { s.map with phase := .opened, liveClosed := [], policy := [] }, times := [], zones := [], arbiters := [],
           buf := {}, dsp := { s.dsp with agingStart := none }, win := { s.win with mapKept := false } }

def headOpen (s : State) : State :=
  if (fleet s).any (fun p => !decide (p.2.state = .offline)) then refuseHead .fleetActive 0 s
  else if moves s ≠ [] then refuseHead .ordersLive 0 s
  else match s.map.phase with
    | .vacant => endHead .completed none 0 0 { s with map := { s.map with phase := .opened } }
    | .opened => endHead .completed none 0 0 s
    | .committed => endHead .completed none 0 0 (discardLive s)

/-! ### MAP_LOAD (01 R14 to R16) -/

/-- The refusal of a MAP_LOAD at the head (01 R14). -/
def loadRefusal (s : State) (sec first count off : Nat) : Option Reason :=
  if s.map.phase ≠ .opened then some .mapState
  else match sectionCapacity sec with
    | none => some .badOperand
    | some cap =>
      if count = 0 ∨ cap < first + count ∨ off % 8 ≠ 0 ∨ stagingSize s < off + count * entrySize sec then some .badOperand
      else none

/-- Writes one entry as staged (01 R15). -/
def writeEntry (sec i : Nat) (bs : List Byte) (s : State) : State :=
  { s with map := match sec with
    | 0 => { s.map with globals := parseGlobals bs }
    | 1 => { s.map with nodes := tset none s.map.nodes i (parseNode bs) }
    | 2 => { s.map with segments := tset none s.map.segments i (parseSegment bs) }
    | 3 => { s.map with zones := tset none s.map.zones i (parseZone bs) }
    | 4 => { s.map with merges := tset none s.map.merges i (parseMerge bs) }
    | 5 => { s.map with bays := tset none s.map.bays i (parseBay bs) }
    | 6 => { s.map with stations := tset none s.map.stations i (parseStation bs) }
    | 7 => { s.map with decodes := tset none s.map.decodes i (parseDecode bs) }
    | 8 => { s.map with routes := tset none s.map.routes i (parseRoute bs) }
    | _ => s.map }

/-- A table without the entries of a range. -/
def without {α : Type} (first count : Nat) (t : Table α) : Table α :=
  t.filter (fun p => !(decide (first ≤ p.1) && decide (p.1 < first + count)))

/-- Sets every entry of a range to its empty form (01 R16). -/
def emptyRange (sec first count : Nat) (s : State) : State :=
  { s with map := match sec with
    | 0 => { s.map with globals := {} }
    | 1 => { s.map with nodes := without first count s.map.nodes }
    | 2 => { s.map with segments := without first count s.map.segments }
    | 3 => { s.map with zones := without first count s.map.zones }
    | 4 => { s.map with merges := without first count s.map.merges }
    | 5 => { s.map with bays := without first count s.map.bays }
    | 6 => { s.map with stations := without first count s.map.stations }
    | 7 => { s.map with decodes := without first count s.map.decodes }
    | 8 => { s.map with routes := without first count s.map.routes }
    | _ => s.map }

/-- The window offset of the staging entry of a MAP_LOAD for entry `i` (01 R14). -/
def loadPlace (s : State) (sec first off i : Nat) : Nat := stagingOffset s (off + (i - first) * entrySize sec)
/-- The staging read for entry `i` is abandoned (01 R16, 10 R185). -/
def loadFails (sec first count off i cause : Nat) (s : State) : State :=
  refuseHead .loadFault (sectionDetail sec i) (emptyRange sec first count (logFault cause (loadPlace s sec first off i) s))
/-- A MAP_LOAD comes to entry `i`: its staging read is made, and is tested against the window registers as they stand
(10 R185). R15 does not say when: at once is the model's choice. DESIGN CHOICE (unsafe, log 6). -/
def loadRead (sec first count off i : Nat) (s : State) : State :=
  if accessOk s (loadPlace s sec first off i) (entrySize sec) then setRun (.loading i) s
  else loadFails sec first count off i 1 s
def headLoad (sec first count off : Nat) (s : State) : State := match loadRefusal s sec first count off with
  | some r => refuseHead r 0 s
  | none => loadRead sec first count off first s

/-- The staging read of the entry a MAP_LOAD has come to completes (01 R15, R16). -/
def loadEntryDone (r : ReadResult) (s : State) : State := match s.map.run, s.map.queue with
  | .loading i, ⟨_, .load sec first count off⟩ :: _ => match r with
    | .error => loadFails sec first count off i 2 s
    | .data bs =>
      let s1 := writeEntry sec i bs s
      if i + 1 < first + count then loadRead sec first count off (i + 1) s1 else endHead .completed none 0 0 s1
  | _, _ => s

/-! ### MAP_COMMIT (01 R17, R22) -/

def headCommit (s : State) : State := if s.map.phase ≠ .opened then refuseHead .mapState 0 s else setRun .validating s

def clampTo (lo hi x : Nat) : Nat := max lo (min x hi)

/-- The global parameters within their ranges (01 R3). -/
def clampGlobals (g : Globals) : Globals :=
  { g with lookahead := clampTo 1 6 g.lookahead, agingPeriod := clampTo 1 255 g.agingPeriod,
           stallLimit := clampTo 5 255 g.stallLimit, hoistWaitLimit := clampTo 10 255 g.hoistWaitLimit,
           busyRetry := clampTo 500 10000 g.busyRetry, replyWindow := clampTo 100 2000 g.replyWindow,
           silenceLimit := clampTo 1000 10000 g.silenceLimit, rackSilenceLimit := clampTo 1000 30000 g.rackSilenceLimit }
/-- The segments with their speed limits within 200 to 6,000 mm/s (01 R5). -/
def clampSpeeds (t : Table (Option SegmentEntry)) : Table (Option SegmentEntry) :=
  t.map (fun p => (p.1, p.2.map (fun e => { e with speed := clampTo 200 6000 e.speed })))

/-- A merge's arbiter when the map is committed (07 R151). R151 gives the convoy start no value: 0 is the model's, shown
in the zone mirror. DESIGN CHOICE (unsafe, log 47). -/
def freshArbiter (e : MergeEntry) : Arbiter :=
  let b : Branch := if e.parkBranch = 1 then .b else .a
  { favour := b, park := b, limit := e.convoyLimit }
/-- The rack records of every bay with a rack, their timers started (09 R182). -/
def freshRacks (now : Time) (bays : Table (Option BayEntry)) : Table Rack :=
  bays.filterMap (fun p => match p.2 with
    | some e => if hasRack e then some (p.1, { timer := some now }) else none
    | none => none)
/-- The result flags of a commit (10, Formats: bits 3 and 4). -/
def commitFlags (s : State) : Nat :=
  bit (!decide (clampGlobals s.map.globals = s.map.globals)) 3 + bit (!decide (clampSpeeds s.map.segments = s.map.segments)) 4

/-- A MAP_COMMIT whose checks pass takes effect (01 R22). -/
def commitMap (s : State) : State :=
  let segs := clampSpeeds s.map.segments
  { s with
    map := { s.map with
      phase := .committed, globals := clampGlobals s.map.globals, segments := segs,
      liveClosed := s.map.stations.filterMap (fun p => match p.2 with
        | some e => if e.initial = 1 then some (p.1, true) else none
        | none => none),
      policy := s.map.bays.filterMap (fun p => match p.2 with
        | some e => if e.policy = {} then none else some (p.1, e.policy)
        | none => none) }
    times := segs.map (fun p => (p.1, p.2.map freshTimes))
    zones := []
    arbiters := s.map.merges.map (fun p => (p.1, p.2.map freshArbiter))
    buf := { shelves := [], racks := freshRacks s.clock s.map.bays }
    flt := { s.flt with phase := .assembly }
    tsl := { s.tsl with grantQueue := s.tsl.grantQueue.filter (fun p => !p.2) }
    dsp := { s.dsp with agingStart := some s.clock } }

/-- The checks of a MAP_COMMIT are complete (01 R17). -/
def validationDone (s : State) : State := match s.map.run with
  | .validating => match validate s with
    | some f => refuseHead .mapInconsistent (sectionDetail f.1 f.2) s
    | none => endHead .completed none 0 (commitFlags s) (commitMap s)
  | _ => s

/-! ### ROUTE_PATCH (02 R38 to R42) -/

/-- The refusal of a ROUTE_PATCH at the head (02 R38). -/
def patchRefusal (s : State) (count off : Nat) : Option Reason :=
  if s.map.phase ≠ .committed then some .mapState
  else if count = 0 ∨ Config.patchLimit < count ∨ off % 8 ≠ 0 ∨ stagingSize s < off + count * patchSize then some .badOperand
  else none

/-- The window offset of the staging entry at a position of a patch (02 R38). -/
def patchPlace (s : State) (off i : Nat) : Nat := stagingOffset s (off + i * patchSize)
/-- The staging read for a position of a patch is abandoned (02 R39, 10 R185). -/
def patchFails (off i cause : Nat) (s : State) : State :=
  refuseHead .loadFault (sectionDetail 8 i) (logFault cause (patchPlace s off i) s)
/-- A ROUTE_PATCH that has read `buf` makes its next staging read, tested against the window registers as they stand
(10 R185). R39 does not say when: at once is the model's choice. DESIGN CHOICE (unsafe, log 6). -/
def patchRead (off : Nat) (buf : List PatchEntry) (s : State) : State :=
  if accessOk s (patchPlace s off buf.length) patchSize then setRun (.reading buf) s else patchFails off buf.length 1 s
def headPatch (count off : Nat) (s : State) : State := match patchRefusal s count off with
  | some r => refuseHead r 0 s
  | none => patchRead off [] s

/-- The position of the first patch entry that is out of range or repeats an earlier pair (02 R39). -/
def badPatch : Nat → List (Nat × Nat) → List PatchEntry → Option Nat
  | _, _, [] => none
  | i, seen, e :: l =>
    if Config.nodeCount ≤ e.node ∨ Config.bayCount ≤ e.bay ∨ seen.contains (e.node, e.bay) then some i
    else badPatch (i + 1) ((e.node, e.bay) :: seen) l

/-- The staging read of the entry a ROUTE_PATCH has come to completes (02 R39, R40). -/
def patchEntryDone (r : ReadResult) (s : State) : State := match s.map.run, s.map.queue with
  | .reading buf, ⟨_, .patch count off⟩ :: _ => match r with
    | .error => patchFails off buf.length 2 s
    | .data bs =>
      let all := buf ++ [parsePatch bs]
      if all.length < count then patchRead off all s
      else match badPatch 0 [] all with
        | some i => refuseHead .badOperand i s
        | none => setRun (if s.dsp.evaluating then .waiting all else .checking all) s
  | _, _ => s

/-- The state with the route table as it stands with a patch written over it (02 R41). -/
def patched (buf : List PatchEntry) (s : State) : State :=
  { s with map := { s.map with
    routes := buf.foldl (fun t e => tset none t (routeIndex e.node e.bay) e.route) s.map.routes } }

/-- The checks of a patch over the patched table (02 R41). Checks 1 and 2 are made together, entry by entry in index
order, which decides the entry reported when several fail. DESIGN CHOICE (unsafe, log 26). -/
def checkPatch (buf : List PatchEntry) (t : State) : Option Failure :=
  let written := t.map.routes.filter (fun p => buf.any (fun e => decide (routeIndex e.node e.bay = p.1)))
  firstFailure [firstBad 8 written (fun i e => routeInRange t i e && routeRefs t i e), check5 t]

/-- The checks of a ROUTE_PATCH are complete: it is applied whole or not at all (02 R41, R42). -/
def patchCheckDone (s : State) : State := match s.map.run with
  | .checking buf =>
    let t := patched buf s
    match checkPatch buf t with
    | some f => refuseHead .mapInconsistent (sectionDetail f.1 f.2) s
    | none =>
      let t1 := clearStale t
      endHead .completed none 0 0 (push (reviseAll t1 ++ attemptAll t1) t1)
  | _ => s

/-! ### The head of the queue -/

/-- The directive that has reached the head runs (01 R11). -/
def mapHead (s : State) : State := match s.map.run, s.map.queue with
  | .idle, d :: _ => match d.op with
    | .opening => headOpen s
    | .load sec first count off => headLoad sec first count off s
    | .commit => headCommit s
    | .patch count off => headPatch count off s
  | _, _ => s

end Sys2Proof.Machine
end

