-- ==== Sys2Proof/Machine/Fleet.lean ====
section
/-! DEFINITION. Fleet Table (05): targets, arrivals, the parking rule, nudging, faults, loss, and the end of a record. -/

namespace Sys2Proof.Machine

/-! ### Targets and states -/

/-- The offer of a released park node (05 R114). -/
def offerOf : Option Nat → List Task
  | some n => [.offer n]
  | none => []

/-- What a target that has been set asks for: arrival handling if the vehicle stands there (05 R106), the revision of its
wait (06 R127), an extension attempt (06 R121). -/
def targetTasks (v g : Nat) (s : State) : List Task :=
  (if standingAt (veh s v) = some g then [.arrival v] else []) ++ [.revise v, .attempt v]

/-- Sets a vehicle's route target. -/
def setTarget (v g : Nat) (s : State) : State := push (targetTasks v g s) (modVeh v (fun r => { r with target := some g }) s)

/-- A record becomes IDLE; the parking rule then applies (05 R114), and the vehicle's wait is revised under the target
which that gives it (06 R127: a wait for the zone that the new target needs is kept). -/
def toIdle (v : Nat) (s : State) : State :=
  push [.parking v, .revise v] (modVeh v (fun r => { r with state := .idle, target := none, circulating := false }) s)

/-- A record becomes HOLDING; its wait is revised (06 R127) and a park reservation is released (05 R111, R114). -/
def toHolding (v : Nat) (s : State) : State :=
  push (.revise v :: offerOf (veh s v).park)
    (modVeh v (fun r => { r with state := .holding, target := none, circulating := false, park := none }) s)

/-! ### Ends of MOVEs seen by the vehicle -/

/-- A live MOVE ends FAILED; a cancel that was deferred is too late (03 R61, R67). -/
def failMove (k : Nat) (reason : Reason) (place : Place) (s : State) : State :=
  finishOrder k .failed (some reason) place
    (modOrder k (fun r => { r with cancelTooLate := r.cancelTooLate || r.cancelDeferred }) s)

/-- A vehicle's chained order, if any, becomes its current order (03 R55). -/
def promote (v k : Nat) (s : State) : State :=
  let s1 := modOrder k (fun r => { r with state := .assigned }) s
  let s2 := modVeh v (fun r => { r with state := .toSource, current := some k, chained := none }) s1
  match (orderAt s2 k).bind (sourceNode s2) with
  | some g => setTarget v g s2
  | none => s2

/-- A vehicle's current order ends COMPLETED (03 R55, R60). -/
def completeMove (v k : Nat) (s : State) : State :=
  let s1 := finishOrder k .completed none .destination s
  match (veh s1 v).chained with
  | some c => promote v c s1
  | none => toIdle v s1

/-! ### Arrival handling (05 R106) -/

/-- Begins a hoist cycle for an order at a station (05 R107). -/
def beginCycle (v : Nat) (kind : HoistKind) (st : Nat) (carrier : Option (List Byte)) (s : State) : State :=
  handHoist v true (modVeh v (fun r => { r with hoist := some { kind := kind, station := st, carrier := carrier } }) s)

/-- Park nodes in list order that no other vehicle reserves (05 R114). -/
def freeParks (s : State) (v b : Nat) : List Nat :=
  (parkList s b).filter (fun n => !(fleet s).any (fun p => !decide (p.1 = v) && decide (p.2.park = some n)))

/-- The park node the rule gives a record: where it stands, if that is one and free or its own; else the first free. -/
def parkChoice (s : State) (v : Nat) : Option Nat :=
  let r := veh s v
  let free := freeParks s v r.pool
  match standingAt r with
  | some n => if free.contains n then some n else free.head?
  | none => free.head?

/-- The entry node of a bay (01 R7). -/
def entryNode (s : State) (b : Nat) : Option Nat := (bayAt s b).map (fun e => e.entryNode)

/-- The offer of a park node that a record gives up as it reserves `n` (05 R114). -/
def offerUnless (n : Nat) (old : Option Nat) : List Task := if old = some n then [] else offerOf old

/-- Reserves a park node and heads for it; a reservation held elsewhere is released (05 R114). -/
def parkAt (v n : Nat) (s : State) : State :=
  let r := veh s v
  push (offerUnless n r.park) (setTarget v n (putVeh v { r with state := .parking, circulating := false, park := some n } s))

/-- Where a circulating record goes (05 R115): the entry node of its home pool, or one node on if it stands there. -/
def circulateGoal (s : State) (r : Vehicle) : Option Nat := match entryNode s r.pool with
  | none => none
  | some e => if standingAt r = some e then (loopNext s e).bind (segTo s) else some e

/-- Begins to circulate (05 R115). A park node that the record still reserves is released and offered: R114 to R116 do not
say so of a nudged record that stands elsewhere. DESIGN CHOICE (unsafe, log 55). -/
def circulate (v : Nat) (s : State) : State :=
  let r := veh s v
  let s1 := putVeh v { r with state := .parking, circulating := true, park := none } s
  push (offerOf r.park) (match circulateGoal s r with
    | some g => setTarget v g s1
    | none => push [.revise v] s1)

/-- The parking rule, for a record that is IDLE with no order, UNCERTAIN or retiring mark (05 R114). -/
def parkingRule (v : Nat) (s : State) : State :=
  let r := veh s v
  if r.state ≠ .idle ∨ r.current.isSome ∨ r.uncertain ∨ r.retiring then s
  else match parkChoice s v with
    | some n =>
      if standingAt r = some n then
        push (.revise v :: offerUnless n r.park) (putVeh v { r with park := some n } s)
      else parkAt v n s
    | none => circulate v s

/-- A circulating record tries the parking rule again at its target (05 R115). -/
def circulatingArrival (v g : Nat) (s : State) : State :=
  let r := veh s v
  let stop (p : Option Nat) := push [.revise v] (putVeh v { r with state := .idle, target := none, circulating := false, park := p } s)
  match parkChoice s v with
  | some n => if standingAt r = some n then stop (some n) else parkAt v n s
  | none => match entryNode s r.pool with
    | some e => if e = g then stop none else setTarget v e s
    | none => s

/-- Ends a vehicle's JOG at its node (05 R102, R106). -/
def jogArrives (v : Nat) (j : Jog) (s : State) : State :=
  let s1 := modVeh v (fun r => { r with jog := none }) (endDirective j.slot .completed none 0 0 s)
  if j.holding then toHolding v s1 else toIdle v s1

/-- The arrival handling at the route target (05 R106), if the record stands at it. -/
def arrival (v : Nat) (s : State) : State :=
  let r := veh s v
  match standingAt r, r.target with
  | some n, some g =>
    if n ≠ g ∨ r.uncertain then s
    else match r.state with
      | .toSource => match r.current.bind (fun k => (orderAt s k).map (fun o => (k, o))) with
        | some (k, o) => match o.source with
          | .station st =>
            if o.state = .assigned ∧ stationNode s st = some g then
              beginCycle v .load st o.carrier (putOrder k { o with state := .picking } s)
            else s
          | .vehicle _ => s
        | none => s
      | .toDest => match r.current.bind (fun k => (orderAt s k).map (fun o => (k, o))) with
        | some (k, o) => match destStation o with
          | some st =>
            if o.state = .carrying ∧ stationNode s st = some g then
              beginCycle v .unload st o.carrier (putOrder k { o with state := .placing } s)
            else s
          | none => s
        | none => s
      | .parking =>
        if r.circulating then circulatingArrival v g s
        else if r.park = some g then
          push [.revise v] (putVeh v { r with state := .idle, target := none } s)
        else s
      | .manual => match r.jog with
        | some j => if j.node = g then jogArrives v j s else s
        | none => s
      | _ => s
  | _, _ => s

/-! ### Offers and nudges -/

/-- Whether a record takes an offered park node (05 R114). -/
def takesOffer (s : State) (n : Nat) (r : Vehicle) : Bool :=
  decide (r.state = .idle) && (standingAt r).isSome && r.park.isNone && !r.uncertain && !r.retiring &&
    (parkList s r.pool).contains n

/-- A released park node is offered (05 R114). -/
def offer (n : Nat) (s : State) : State :=
  if (fleet s).any (fun p => decide (p.2.park = some n)) then s
  else match (fleet s).find? (fun p => takesOffer s n p.2) with
    | some p => parkAt p.1 n s
    | none => s

/-- The list that follows an element, then what stands before it: the order of a nudge (05 R116). -/
def wrapAfter (n : Nat) (l : List Nat) : List Nat := (l.dropWhile (fun x => x ≠ n)).drop 1 ++ l.takeWhile (fun x => x ≠ n)

/-- A nudge (05 R116). -/
def nudge (v : Nat) (s : State) : State :=
  let r := veh s v
  if !nudgeable r then s
  else if r.park.isSome ∧ r.park = standingAt r then
    let free := freeParks s v r.pool
    match (wrapAfter (r.park.getD 0) (parkList s r.pool)).find? (fun n => free.contains n) with
    | some n => parkAt v n s
    | none => circulate v s
  else circulate v s

/-! ### Faults and loss (03 R61; 05 R112, R113) -/

/-- The carrier place of an order whose cycle was sent: `untouched` if every send was answered BUSY (03 R61; log 16). -/
def sentPlace (h : HoistCycle) (untouched : Place) : Place :=
  if h.allBusy && !decide (h.phase = .awaiting) then untouched else .unknown

/-- Whether a cycle's HOIST has been sent: from its first send onward (05 R107). -/
def cycleSent (h : Option HoistCycle) : Bool := h.any (fun c => c.firstSend.isSome)

/-- The current order of a vehicle that goes FAULTED or LOST (03 R61). -/
def currentOut (v : Nat) (reason : Reason) (s : State) : State :=
  let r := veh s v
  match r.current with
  | none => s
  | some k => match orderAt s k with
    | none => s
    | some o => match o.state, r.hoist with
      | .carrying, _ => failMove k reason .vehicle s
      | .picking, some h =>
        if cycleSent (some h) then failMove k reason (sentPlace h .source) s
        else if o.cancelDeferred then finishOrder k .cancelled none .source s
        else repend k s
      | .placing, some h => failMove k reason (if cycleSent (some h) then sentPlace h .vehicle else .vehicle) s
      | .picking, none => if o.cancelDeferred then finishOrder k .cancelled none .source s else repend k s
      | .placing, none => failMove k reason .vehicle s
      | _, _ => repend k s

/-- A JOG ends FAILED (05 R102). -/
def failJog (v : Nat) (reason : Reason) (s : State) : State := match (veh s v).jog with
  | some j => modVeh v (fun r => { r with jog := none }) (endDirective j.slot .failed (some reason) 0 0 s)
  | none => s

/-- Clears the measurable mark (02 R35). -/
def unmark (r : Vehicle) : Vehicle := { r with pos := r.pos.map (fun p => { p with measurable := false }) }

/-- Steps 1 to 3 of 05 R112; the vehicle is withdrawn from its wait (06 R127) before its park node is offered. -/
def outOfService (v : Nat) (reason : Reason) (s : State) : State :=
  let s1 := failJog v reason (endCycle v (rependChained v (currentOut v reason s)))
  push (.revise v :: offerOf (veh s1 v).park)
    (modVeh v (fun r => unmark { r with park := none, target := none, circulating := false, retiring := false }) s1)

/-- A record goes FAULTED (05 R112). -/
def enterFaulted (v : Nat) (code : FaultCode) (s : State) : State :=
  modVeh v (fun r => { r with state := .faulted, fault := code }) (queueStand v (outOfService v .vehicleFault s))

/-- A record goes LOST (05 R113, 08 R166). The fault code is kept (log 33). -/
def enterLost (v : Nat) (s : State) : State :=
  let s1 := modVeh v (fun r => { r with state := .lost }) (outOfService v .vehicleLost s)
  let s2 : State := { s1 with tsl := { s1.tsl with
    grantQueue := dequeue v s1.tsl.grantQueue, hoistQueue := dequeue v s1.tsl.hoistQueue } }
  voidHoist v (modLink v (fun l => { l with lastSent := .none_, replyWait := none, silence := none }) s2)

/-- The hoist cycle's order ends HOIST_FAULT and the vehicle goes FAULTED, HOIST_JAM (05 R110, R112). -/
def hoistJam (v : Nat) (s : State) : State :=
  let s1 := match (veh s v).current with
    | some k => failMove k .hoistFault .unknown s
    | none => s
  enterFaulted v .hoistJam s1

/-- The order of a hoist cycle fails at the station: the chained order re-pends; IDLE after a LOAD, HOLDING after an
UNLOAD (05 R108, R109, R110). -/
def failHoist (v : Nat) (h : HoistCycle) (reason : Reason) (place : Place) (s : State) : State :=
  let s1 := match (veh s v).current with
    | some k => failMove k reason place s
    | none => s
  let s2 := endCycle v (rependChained v s1)
  match h.kind with
  | .load => toIdle v s2
  | .unload => toHolding v s2

/-- The carrier place of a hoist that the station never took (03 R57, R60). -/
def untouchedPlace : HoistKind → Place
  | .load => .source
  | .unload => .vehicle

/-! ### The end of a record (05 R98) -/

/-- The record takes its empty form, with its link side. -/
def emptyRecord (v : Nat) (s : State) : State :=
  push [.revise v] (clearLink v (putVeh v {} s))

/-- Releases zones in the order given. -/
def releases (v : Nat) (zs : List Nat) : List Task := zs.map (fun z => .release v z)

end Sys2Proof.Machine
end

