-- ==== Sys2Proof/Machine/Buffers.lean ====
section
/-! DEFINITION. Buffer Monitor (09): choice of shelves, re-choice, scans, rack silence. -/

namespace Sys2Proof.Machine

/-! ### Choice (09 R179) -/

/-- The stations of a bay's rack; none for a bay without one. -/
def rackOf (s : State) (b : Nat) : List Nat := match bayAt s b with
  | some e => if hasRack e then rackShelves e else []
  | none => []
/-- Choosable as a drop target (09 R179). -/
def choosable (s : State) (st : Nat) : Bool :=
  let h := shelfAt s st
  decide (h.sensed = some .empty) && decide (h.logical = .free) && !h.placed && !stationClosed s st && (claimDest s st).isNone
/-- The drop choice: the choosable shelf of the bay with the lowest station number. -/
def dropChoice (s : State) (b : Nat) : Option Nat := (rackOf s b).find? (choosable s)
/-- Ready as a pickup source (09 R179). -/
def pickReady (s : State) (st : Nat) : Bool :=
  let h := shelfAt s st
  decide (h.logical = .free) && (decide (h.sensed = some .present) || (decide (h.sensed = some .ambiguous) && h.placed))

/-- Reserves a shelf for an order's drop; ORD records it as the chosen shelf (09 R179). -/
def reserveDrop (k st : Nat) (s : State) : State :=
  modOrder k (fun r => { r with chosen := some st, shelfChosen := true })
    (putShelf st { shelfAt s st with logical := .reservedDrop, reserving := some k } s)
/-- Reserves a shelf for an order's pickup (04 R83). -/
def reservePick (k st : Nat) (s : State) : State :=
  putShelf st { shelfAt s st with logical := .reservedPick, reserving := some k } s

/-- An order with its carrier aboard has no shelf left: FAILED, DEST_OCCUPIED, the vehicle HOLDING (09 R180, R181;
log 24). -/
def noShelf (k v : Nat) (s : State) : State :=
  let s1 := modOrder k (fun r => { r with chosen := none, shelfChosen := false }) s
  toHolding v (endCycle v (rependChained v (failMove k .destOccupied .vehicle s1)))

/-- Whether a shelf is kept: the transmitter has taken the first HOIST of the UNLOAD cycle (09 R180). -/
def keepsShelf (s : State) (o : OrderRec) : Bool :=
  decide (o.state = .placing) && (match o.vehicle.bind (fun v => (veh s v).hoist) with
    | some h => h.sentOnce || !decide (h.phase = .queued)
    | none => false)

/-- A re-choice for a RESERVED_DROP shelf that left EMPTY (09 R180). -/
def rechoose (st : Nat) (s : State) : State :=
  let h := shelfAt s st
  match h.reserving with
  | none => s
  | some k => match orderAt s k with
    | none => s
    | some o =>
      if h.logical ≠ .reservedDrop ∨ keepsShelf s o then s
      else
        let s1 := putShelf st { h with logical := .free, reserving := none } s
        match ((stationAt s st).map (fun e => e.bay)).bind (dropChoice s1) with
        | some n =>
          let s2 := reserveDrop k n s1
          match o.state, o.vehicle, stationNode s n with
          | .carrying, some v, some g => setTarget v g s2
          | .placing, some v, some g => setTarget v g (modOrder k (fun r => { r with state := .carrying }) (endCycle v s2))
          | _, _, _ => s2
        | none => match o.state, o.vehicle with
          | .carrying, some v => noShelf k v s1
          | .placing, some v => noShelf k v s1
          | _, _ => modOrder k (fun r => { r with chosen := none, shelfChosen := false }) s1

/-- Re-choices in increasing station number, each against the shelves as the earlier ones left them. -/
def rechooseAll (sts : List Nat) (s : State) : State := sts.foldl (fun t st => rechoose st t) s

/-! ### Scans (09 R173 to R175) -/

/-- The shelf of row `r` and column `c` as a scan read it. -/
def readPresent (rows : Table (Option Nat)) (r c : Nat) : Bool := ((tget none rows r).getD 0).testBit c

/-- Ghost inference for one shelf (09 R174). -/
def infer (e : BayEntry) (rows : Table (Option Nat)) (r c : Nat) : Sense :=
  if !readPresent rows r c then .empty
  else if (List.range e.rows).any (fun r2 => (List.range e.cols).any (fun c2 =>
      !decide (r2 = r) && !decide (c2 = c) && readPresent rows r c2 && readPresent rows r2 c2 && readPresent rows r2 c)) then .ambiguous
  else .present

/-- Confirmation: the pending and the sensed state after (09 R175). -/
def confirm (v : Sense) (pending sensed : Option Sense) : Option Sense × Option Sense :=
  if sensed = some v then (none, sensed)
  else if pending = some v then (none, some v)
  else (some v, sensed)

/-- One shelf under a complete scan (09 R174, R175, R178). -/
def scannedShelf (present : Bool) (v : Sense) (h : Shelf) : Shelf :=
  let c := confirm v h.pending h.sensed
  { h with raw := some (if present then .present else .absent), inferred := some v, pending := c.1, sensed := c.2,
           placed := if h.sensed ≠ some .empty ∧ c.2 = some .empty then false else h.placed }

/-- The RESERVED_DROP shelves of a rack that were sensed EMPTY before and are not now. -/
def leftEmpty (before after : State) (sts : List Nat) : List Nat :=
  sts.filter (fun st => decide ((shelfAt before st).sensed = some .empty) && !decide ((shelfAt after st).sensed = some .empty) &&
    decide ((shelfAt after st).logical = .reservedDrop))

/-- A complete scan of a bay's rack (09 R174, R175). -/
def applyScan (e : BayEntry) (rows : Table (Option Nat)) (s : State) : State :=
  let s1 := (List.range (e.rows * e.cols)).foldl (fun t i =>
    let r := i / e.cols
    let c := i % e.cols
    putShelf (e.firstShelf + i) (scannedShelf (readPresent rows r c) (infer e rows r c) (shelfAt t (e.firstShelf + i))) t) s
  rechooseAll (leftEmpty s s1 (rackShelves e)) s1

/-- Enters a frame's rows in an assembly (09 R173, step 3). -/
def enterRows (e : BayEntry) : Nat → List Nat → Table (Option Nat) → Table (Option Nat)
  | _, [], t => t
  | r, x :: xs, t => enterRows e (r + 1) xs (if r < e.rows then tset none t r (some (x % 2 ^ e.cols)) else t)

/-- Whether every row of a rack was received. -/
def allRows (e : BayEntry) (t : Table (Option Nat)) : Bool := (List.range e.rows).all (fun r => (tget none t r).isSome)

/-- A SCAN frame for a bay's rack (09 R173). -/
def scanFrame (b seq first : Nat) (last : Bool) (rows : List Nat) (s : State) : State :=
  match (if committed s then bayAt s b else none) with
  | none => s
  | some e =>
    let k := rackAt s b
    if !hasRack e || (decide (k.lastSeq = some seq) && k.assembly.isNone) then s
    else
      let got := match k.assembly with
        | some a => if a.seq = seq then a.rows else []
        | none => []
      let t := enterRows e first rows got
      if !last then putRack b { k with assembly := some { seq := seq, rows := t } } s
      else if allRows e t then
        applyScan e t (putRack b { assembly := none, lastSeq := some seq, timer := some s.clock } s)
      else putRack b { k with assembly := none } s

/-! ### Rack silence (09 R176) -/

/-- The rack silence limit has run (09 R176). -/
def rackExpires (b : Nat) (s : State) : State :=
  let k := rackAt s b
  match k.timer with
  | none => s
  | some t0 =>
    if elapsed s.clock t0 < s.map.globals.rackSilenceLimit then s
    else
      let sts := rackOf s b
      let s1 := putRack b {} s
      let s2 := sts.foldl (fun t st =>
        putShelf st { shelfAt t st with raw := none, inferred := none, pending := none, sensed := none } t) s1
      rechooseAll (leftEmpty s s2 sts) s2

end Sys2Proof.Machine
end

