-- ==== Sys2Proof/Machine/Selection.lean ====
section
/-! DEFINITION. Dispatch Engine (04) and scores (02): eligibility, candidates, scoring, completion, assignment, aging. -/

namespace Sys2Proof.Machine

/-! ### Eligibility and candidates -/

/-- An order can be served (04 R75). -/
def eligible (s : State) (o : OrderRec) : Bool :=
  (match o.source with
   | .station st => !isShelf s st || pickReady s st
   | .vehicle _ => true) &&
  (match o.dest with
   | .station _ => true
   | .buffer b => (dropChoice s b).isSome)

/-- The bay of an order's source station. -/
def sourceBay (s : State) (o : OrderRec) : Option Nat := match o.source with
  | .station st => (stationAt s st).map (fun e => e.bay)
  | .vehicle _ => none
/-- A bay's live pool policy (05 R101). -/
def policyOf (s : State) (b : Nat) : Policy := tget {} s.map.policy b
/-- The pool rule (04 R77). -/
def poolRule (s : State) (p b : Nat) : Bool :=
  decide (p = b) || decide (p = 0) ||
    ((policyOf s p).lend && ((policyOf s b).borrow || decide (b = 0)) && decide ((policyOf s p).reserve < idleCount s p))
/-- The kind a record's state gives it as a candidate (04 R76). -/
def kindOf (s : State) (r : Vehicle) : Option CandKind :=
  if r.state = .idle ∨ r.state = .parking then some .direct
  else if r.state = .toDest ∧ r.chained.isNone ∧ s.map.globals.chainWindow ≠ 0 then some .chain
  else none
/-- The record conditions, with the kind they give (04 R76). -/
def candidate (s : State) (o : OrderRec) (v : Nat) : Option CandKind :=
  let r := veh s v
  if r.uncertain || r.quarantined then none
  else match sourceBay s o with
    | none => none
    | some b => if poolRule s r.pool b then kindOf s r else none
/-- The candidate snapshot, by increasing vehicle number (04 R79). -/
def snapshot (s : State) (o : OrderRec) : List (Nat × CandKind) :=
  (fleet s).filterMap (fun p => (candidate s o p.1).map (fun k => (p.1, k)))

/-! ### Scores (02 R32, 04 R78) -/

/-- The node of a vehicle's current order's destination station. -/
def deliveryNode (s : State) (r : Vehicle) : Option Nat := (r.current.bind (orderAt s)).bind (destNode s)
/-- The ETA of a vehicle's delivery, if it exists and is within the chain window (04 R74, R78). -/
def windowEta (s : State) (r : Vehicle) : Option Nat := match (deliveryNode s r).bind (etaTo s r) with
  | some e => if e ≤ s.map.globals.chainWindow then some e else none
  | none => none
/-- The travel term of a candidate (02 R32). -/
def travelTerm (s : State) (o : OrderRec) (v : Nat) (kind : CandKind) : Option Nat :=
  let r := veh s v
  match kind, sourceNode s o with
  | _, none => none
  | .direct, some g => etaTo s r g
  | .chain, some g => match windowEta s r, deliveryNode s r with
    | some e, some d => (walkTime s d g).map (fun w => satAdd (satAdd e s.map.globals.hoistAllowance) w)
    | _, _ => none
/-- The lend penalty of a vehicle for a source bay (02 R32). -/
def lendPenalty (s : State) (p b : Nat) : Nat := if p = b ∨ p = 0 then 0 else s.map.globals.lendPenalty
/-- The score of a candidate, if it exists (02 R32). -/
def score (s : State) (o : OrderRec) (v : Nat) (kind : CandKind) : Option Nat := match sourceBay s o with
  | none => none
  | some b => (travelTerm s o v kind).map (fun t => satAdd t (lendPenalty s (veh s v).pool b))
/-- Whether a scored candidate is better than the best so far (02 R33). -/
def better (a b : Best) : Bool :=
  decide (a.score < b.score) ||
    (decide (a.score = b.score) &&
      ((decide (a.kind = .direct) && decide (b.kind = .chain)) || (decide (a.kind = b.kind) && decide (a.vehicle < b.vehicle))))

/-! ### The evaluation (04, section 4.4) -/

/-- Whether a ROUTE_PATCH is waiting: in WAITING or CHECKING (02 R38). -/
def patchWaits (s : State) : Bool := match s.map.run with
  | .waiting _ => true
  | .checking _ => true
  | _ => false
/-- The first order of the pending list whose stale flag is clear (04 R79). -/
def firstFresh (s : State) : Option (Nat × OrderRec) := (pendingList s).find? (fun p => !p.2.stale)
/-- The start conditions with the order that is taken (04 R79). -/
def startable (s : State) : Option (Nat × OrderRec) :=
  if !s.dsp.evaluating && !s.win.hold && decide (s.flt.phase = .operating) && !patchWaits s then firstFresh s else none

/-- An evaluation ends without an assignment (04 R84, R85). -/
def endUnassigned (k : Nat) (s : State) : State :=
  evaluationEnds (if s.dsp.changeSeen then s else modOrder k (fun r => { r with stale := true }) s)

/-- A pass begins (04 R79); an ineligible order or an empty snapshot ends the evaluation. -/
def beginPass (k : Nat) (o : OrderRec) (s : State) : State :=
  if !eligible s o then endUnassigned k s
  else match snapshot s o with
    | [] => endUnassigned k s
    | c :: cs => { s with dsp := { s.dsp with snapshot := c :: cs, position := some c.1, best := none } }

/-- The number scored after `v`. -/
def nextPosition (snap : List (Nat × CandKind)) (v : Nat) : Option Nat :=
  (snap.find? (fun p => decide (v < p.1))).map (fun p => p.1)

/-- One scoring step (04 R80). -/
def scoreOne (s : State) : State := match s.dsp.position, s.dsp.order.bind (orderAt s) with
  | some v, some o =>
    let kind := (s.dsp.snapshot.find? (fun p => decide (p.1 = v))).map (fun p => p.2)
    let found := match kind with
      | some kd => if candidate s o v = some kd then (score s o v kd).map (fun n => (⟨v, kd, n⟩ : Best)) else none
      | none => none
    let best := match found, s.dsp.best with
      | none, b => b
      | some c, none => some c
      | some c, some b => if better c b then some c else some b
    { s with dsp := { s.dsp with best := best, position := nextPosition s.dsp.snapshot v } }
  | _, _ => s

/-- The re-check of the best so far (04 R82, step 3). -/
def recheck (s : State) (o : OrderRec) (b : Best) : Bool :=
  decide (candidate s o b.vehicle = some b.kind) && (travelTerm s o b.vehicle b.kind).isSome

/-- The reservation of a source that is a shelf (04 R83). -/
def reserveSource (k : Nat) (o : OrderRec) (s : State) : State := match o.source with
  | .station st => if isShelf s st then reservePick k st s else s
  | .vehicle _ => s
/-- The choice and reservation of a shelf of a destination that is a bay (04 R83). -/
def reserveDest (k : Nat) (o : OrderRec) (s : State) : State := match o.dest with
  | .buffer bay => match dropChoice s bay with
    | some st => reserveDrop k st s
    | none => s
  | .station _ => s
/-- An assignment (04 R83, 03 R54, 04 R91). The released park node is offered after the vehicle's own arrival handling,
revision and extension: R91 and R114 give no order. DESIGN CHOICE (unsafe, log 5). -/
def assign (k : Nat) (o : OrderRec) (b : Best) (s : State) : State :=
  let s2 := reserveDest k o (reserveSource k o s)
  let s3 := modOrder k (fun r => { r with
    state := (match b.kind with | .direct => .assigned | .chain => .chained), vehicle := some b.vehicle,
    assigned := some s.clock }) s2
  match b.kind with
  | .chain => modVeh b.vehicle (fun r => { r with chained := some k }) s3
  | .direct =>
    let park := (veh s3 b.vehicle).park
    let s4 := modVeh b.vehicle (fun r => { r with
      state := .toSource, current := some k, park := none, circulating := false }) s3
    push (offerOf park) (match sourceNode s4 o with
      | some g => setTarget b.vehicle g s4
      | none => s4)

/-- A completed pass (04 R82 to R85). -/
def completePass (s : State) : State := match s.dsp.order with
  | none => s
  | some k => match orderAt s k with
    | none => s
    | some o => match s.dsp.best with
      | none => endUnassigned k s
      | some b =>
        if !eligible s o then endUnassigned k s
        else if recheck s o b then evaluationEnds (assign k o b s)
        else if s.dsp.restarts < Config.restartLimit then
          beginPass k o { s with dsp := { s.dsp with restarts := s.dsp.restarts + 1 } }
        else endUnassigned k s

/-! ### Aging (04 R71) -/

/-- Every pending order ages by 1, up to 255. -/
def ageAll (s : State) : State :=
  { s with orders := s.orders.map (fun p => (p.1, match p.2 with
      | some (.move r) => some (.move (if r.state = .pending then { r with age := min 255 (r.age + 1) } else r))
      | l => l)) }

/-- The aging period has run: the orders age and the timer starts its next period (04 R71; log 12). -/
def agingExpires (s : State) : State := match s.dsp.agingStart with
  | none => s
  | some t0 =>
    let period := s.map.globals.agingPeriod * 1000
    if elapsed s.clock t0 < period then s
    else ageAll { s with dsp := { s.dsp with agingStart := some (t0 + BitVec.ofNat 32 period) } }

/-! ### Steps of the evaluation -/

/-- DSP starts an evaluation, if it may (04 R79). -/
def startEvaluation (s : State) : State := match startable s with
  | none => s
  | some (k, o) =>
    beginPass k o { s with dsp := { s.dsp with
      evaluating := true, order := some k, snapshot := [], position := none, best := none, restarts := 0, changeSeen := false } }
/-- The pass completes, once its whole snapshot has been stepped over (04 R82). -/
def evaluationCompletes (s : State) : State :=
  if s.dsp.evaluating ∧ s.dsp.position = none then completePass s else s

/-! ### The in-window mark (04 R74) -/

/-- FLT's notice of an accepted PASS of a TO_DEST vehicle (04 R74). -/
def windowNotice (v : Nat) (s : State) : State :=
  let r := veh s v
  if r.state = .toDest ∧ r.chained.isNone ∧ s.map.globals.chainWindow ≠ 0 ∧ tget false s.dsp.inWindow v = false ∧
      (windowEta s r).isSome then
    availability { s with dsp := { s.dsp with inWindow := tset false s.dsp.inWindow v true } }
  else s

end Sys2Proof.Machine
end

