-- ==== Sys2Proof/Machine/Directives.lean ====
section
/-! DEFINITION. What a taken order does: MOVE intake (03, section 3.1) and the directives of FLT (05), BLK (06) and
BUF (09). Each takes what INK gives it at the taking. -/

namespace Sys2Proof.Machine

/-! ### MOVE (03 R44, R48 to R52) -/

/-- The source of a MOVE, none for an unknown location code (03 R48). -/
def moveSource (s : State) (m : MoveOps) : Option Source :=
  if m.srcKind = 1 then (decodeCode s m.srcValue).map .station else some (.vehicle m.srcValue)
/-- The destination of a MOVE, none for an unknown location code. -/
def moveDest (s : State) (m : MoveOps) : Option Dest :=
  if m.dstKind = 1 then (decodeCode s m.dstValue).map .station else some (.buffer m.dstValue)
/-- Condition 2: BAD_OPERAND (03 R48). -/
def badMove (s : State) (m : MoveOps) : Bool :=
  !(decide (m.srcKind = 1) || decide (m.srcKind = 3)) || !(decide (m.dstKind = 1) || decide (m.dstKind = 2)) ||
    decide (32 < m.idLength) || (decide (m.srcKind = 3) && decide (255 < m.srcValue)) ||
    (decide (m.dstKind = 2) && (decide (63 < m.dstValue) || !bayDefined s m.dstValue))
/-- Whether a source or a destination is a CLOSED station (03 R49). -/
def sourceClosed (s : State) : Source → Bool
  | .station st => stationClosed s st
  | .vehicle _ => false
def destClosed (s : State) : Dest → Bool
  | .station st => stationClosed s st
  | .buffer _ => false
/-- The live MOVE that claims a source, and the one that claims a named destination (03 R50). -/
def sourceClaim (s : State) : Source → Option Nat
  | .station st => claimSource s st
  | .vehicle v => claimVehicle s v
def namedClaim (s : State) : Dest → Option Nat
  | .station st => claimDest s st
  | .buffer _ => none
/-- SAME_LOCATION (03 R49). -/
def sameLocation : Source → Dest → Bool
  | .station a, .station b => decide (a = b)
  | _, _ => false
/-- NO_BUFFER (03 R49). -/
def noBuffer (s : State) : Dest → Bool
  | .buffer b => !(bayAt s b).any hasRack
  | .station _ => false
/-- VEHICLE_STATE (03 R50). -/
def notHolding (s : State) : Source → Bool
  | .vehicle v => !decide ((veh s v).state = .holding)
  | .station _ => false
/-- Conditions 4 to 9, with the detail (03 R49, R50). -/
def placeRefusal (s : State) (a : Source) (b : Dest) : Option (Reason × Nat) :=
  if sourceClosed s a then some (.stationClosed, 1)
  else if destClosed s b then some (.stationClosed, 2)
  else if sameLocation a b then some (.sameLocation, 0)
  else if noBuffer s b then some (.noBuffer, 0)
  else match sourceClaim s a with
    | some k => some (.sourceBusy, k)
    | none => match namedClaim s b with
      | some k => some (.destBusy, k)
      | none => if notHolding s a then some (.vehicleState, 0) else none

/-- The record of a MOVE at its taking (03 R51). -/
def newOrder (t : Taking) (m : MoveOps) (a : Source) (b : Dest) : OrderRec :=
  { seq := t.seq, cls := min 3 m.cls, source := a, dest := b,
    carrier := if m.idLength = 0 then none else some (m.carrier.take m.idLength),
    tag := t.tag, state := .pending, classClamped := decide (3 < m.cls), taken := some t.time }
/-- A MOVE refused at intake (03 R50; log 23). -/
def refuseMove (t : Taking) (m : MoveOps) (b : Dest) (reason : Reason) (detail : Nat) (s : State) : State :=
  oweFinal t.slot (moveFinal { newOrder t m (.station 0) b with ended := some t.time } .refused (some reason) detail .source) s
/-- A MOVE whose cancel byte was set at intake (03 R47; log 23). -/
def cancelledMove (t : Taking) (s : State) : State :=
  let m : MoveOps := { cls := 0, srcKind := 0, dstKind := 0, idLength := 0, srcValue := 0, dstValue := 0, carrier := [] }
  oweFinal t.slot (moveFinal { newOrder t m (.station 0) (.buffer 0) with ended := some t.time } .cancelled none 0 .source) s
/-- A MOVE with a STATION source is accepted (03 R51). -/
def acceptStation (t : Taking) (r : OrderRec) (s : State) : State := oweTaken t.slot (putOrder t.slot r s)
/-- A MOVE with a VEHICLE source is accepted (03 R52). -/
def acceptVehicle (t : Taking) (v : Nat) (r : OrderRec) (s : State) : State :=
  let o : OrderRec := { r with state := .carrying, vehicle := some v, assigned := some t.time, loaded := some t.time }
  let s1 := oweTaken t.slot (putOrder t.slot o s)
  let go (st : Nat) (s2 : State) : State :=
    let s3 := modVeh v (fun q => { q with state := .toDest, current := some t.slot }) s2
    match stationNode s3 st with
    | some g => setTarget v g s3
    | none => s3
  match o.dest with
  | .station st => go st s1
  | .buffer b => match dropChoice s1 b with
    | some st => go st (reserveDrop t.slot st s1)
    | none =>
      oweFinal t.slot (moveFinal { o with ended := some t.time } .failed (some .destOccupied) 0 .vehicle) s
/-- A MOVE is validated and refused or accepted (03 R48 to R52). -/
def takeMove (t : Taking) (m : MoveOps) (s : State) : State :=
  if !committed s then refuseMove t m (.buffer 0) .mapNotCommitted 0 s
  else if badMove s m then refuseMove t m (.buffer 0) .badOperand 0 s
  else match moveSource s m, moveDest s m with
    | none, _ => refuseMove t m (.buffer 0) .unknownLocation 1 s
    | some _, none => refuseMove t m (.buffer 0) .unknownLocation 2 s
    | some a, some b => match placeRefusal s a b with
      | some (reason, detail) => refuseMove t m b reason detail s
      | none => match a with
        | .station _ => acceptStation t (newOrder t m a b) s
        | .vehicle v => acceptVehicle t v (newOrder t m a b) s

/-! ### Fleet directives (05, section 5.3) -/

/-- FLEET_OPEN (05 R96). -/
def takeFleetOpen (t : Taking) (s : State) : State :=
  if !committed s then refuseNow t .mapNotCommitted s
  else if s.flt.phase = .operating then completeNow t 0 s
  else completeNow t 0 (push (attemptAll s) { s with flt := { s.flt with phase := .operating } })

/-- Whether a bay is full (05 R97, R99). -/
def bayFull (s : State) (b : Nat) : Bool := decide (capacityOf s b ≤ occupancy s b)
/-- The record of a vehicle that stands at the end of its arrival segment (05 R97, R99). -/
def standAt (r : Vehicle) (n seg : Nat) : Vehicle :=
  { r with pos := some { standing := some n, segment := seg }, path := [] }

/-- ADMIT (05 R97). -/
def takeAdmit (t : Taking) (v pool seg : Nat) (s : State) : State :=
  if !committed s then refuseNow t .mapNotCommitted s
  else match segAt s seg with
    | none => refuseNow t .badOperand s
    | some e =>
      if 255 < v ∨ bayDefined s pool = false then refuseNow t .badOperand s
      else if (veh s v).state ≠ .offline then refuseNow t .vehicleState s
      else if (zoneRec s e.zone).holder.isSome then refuseNow t .collisionRisk s
      else if (zoneBay s e.zone).any (bayFull s) then refuseNow t .bayFull s
      else
        let s1 := putVeh v (standAt { state := .idle, pool := pool } e.toNode seg) (occupy v e.zone s)
        completeNow t 0 (push [.parking v] (queueStand v (restartSilence v s1)))

/-- RETIRE of an IDLE or PARKING record (05 R98); a moving one hands on no measurement any more (02 R35). -/
def retireIdle (v : Nat) (s : State) : State :=
  let r := veh s v
  if r.path = [] then
    push (offerOf r.park ++ releases v (positionZone s r).toList) (emptyRecord v s)
  else
    push (.revise v :: offerOf r.park)
      (putVeh v (unmark { r with park := none, target := none, circulating := false, retiring := true, quarantined := true }) s)
/-- RETIRE (05 R98). -/
def takeRetire (t : Taking) (v : Nat) (s : State) : State :=
  let r := veh s v
  if !committed s then refuseNow t .mapNotCommitted s
  else if 255 < v then refuseNow t .badOperand s
  else if (r.state = .idle ∨ r.state = .parking) ∧ r.uncertain = false then completeNow t 0 (retireIdle v s)
  else if r.state = .lost ∨ r.state = .faulted then completeNow t 0 (push (releases v (zonesHeld s v)) (emptyRecord v s))
  else refuseNow t .vehicleState s

/-- The record a LOCATE leaves (05 R99). -/
def located (r : Vehicle) (n seg : Nat) : Vehicle :=
  let q := { standAt r n seg with uncertain := false }
  if r.state = .lost then { q with state := .faulted, quarantined := true, fault := .silence } else q
/-- LOCATE (05 R99, R106, R121; 06 R131). -/
def takeLocate (t : Taking) (v seg : Nat) (s : State) : State :=
  let r := veh s v
  if !committed s then refuseNow t .mapNotCommitted s
  else match segAt s seg with
    | none => refuseNow t .badOperand s
    | some e =>
      let b := zoneBay s e.zone
      if 255 < v then refuseNow t .badOperand s
      else if r.state ≠ .lost ∧ r.uncertain = false then refuseNow t .vehicleState s
      else if (zoneRec s e.zone).holder.any (fun h => !decide (h = v)) then refuseNow t .collisionRisk s
      else if b.any (fun x => !holdsBay s v x && bayFull s x) then refuseNow t .bayFull s
      else
        let others := (zonesHeld s v).filter (fun z => !decide (z = e.zone))
        let s1 := putVeh v (located r e.toNode seg) (occupy v e.zone s)
        let s2 := if r.state = .lost then queueStand v (restartSilence v s1) else s1
        completeNow t 0
          (push (releases v others ++ (if r.state = .idle then [.parking v] else []) ++ [.arrival v, .attempt v]) s2)

/-- RELEASE (05 R100). -/
def takeRelease (t : Taking) (v : Nat) (s : State) : State :=
  let r := veh s v
  if !committed s then refuseNow t .mapNotCommitted s
  else if 255 < v then refuseNow t .badOperand s
  else if r.quarantined = false then refuseNow t .notQuarantined s
  else if r.state = .faulted ∨ r.retiring = true then refuseNow t .vehicleState s
  else completeNow t 0 (putVeh v { r with quarantined := false } s)

/-- JOG (05 R102). The released park node is offered after the vehicle's own arrival handling and parking rule, so a JOG to
the own park node may take it back: R102 and R114 give no order. DESIGN CHOICE (unsafe, log 5). -/
def takeJog (t : Taking) (v node : Nat) (s : State) : State :=
  let r := veh s v
  if s.win.manualEnable = false then refuseNow t .manualDisabled s
  else if !committed s then refuseNow t .mapNotCommitted s
  else if 255 < v ∨ homeBay s node = none then refuseNow t .badOperand s
  else if (r.state ≠ .idle ∧ r.state ≠ .holding) ∨ r.uncertain = true ∨ r.retiring = true then refuseNow t .vehicleState s
  else if ((limitOf s r).bind (fun m => walk s m node)).isNone then refuseNow t .noRoute s
  else
    let s1 := putVeh v { r with state := .manual, park := none, circulating := false,
                                jog := some { slot := t.slot, node := node, holding := decide (r.state = .holding) } }
      (keepDirective t 11 s)
    push (offerOf r.park) (setTarget v node s1)

/-- POOL_POLICY (05 R101). -/
def takePoolPolicy (t : Taking) (bay marks reserve : Nat) (s : State) : State :=
  if !committed s then refuseNow t .mapNotCommitted s
  else if 63 < bay ∨ bayDefined s bay = false then refuseNow t .badOperand s
  else
    let p : Policy := { lend := marks.testBit 0, borrow := marks.testBit 1, reserve := min 15 reserve }
    completeNow t (bit (decide (15 < reserve)) 5)
      (availability { s with map := { s.map with policy := tset {} s.map.policy bay p } })

/-! ### Zone directives (06, section 6.5) -/

/-- Whether a zone number names a zone of the committed map. -/
def zoneNamed (s : State) (z : Nat) : Bool := decide (z ≤ 1023) && zoneDefined s z

/-- ZONE_CLOSE (06 R134). -/
def takeZoneClose (t : Taking) (z : Nat) (s : State) : State :=
  let r := zoneRec s z
  if !committed s then refuseNow t .mapNotCommitted s
  else if !zoneNamed s z then refuseNow t .badOperand s
  else match r.live, r.holder, r.closingOrder with
    | .closing, _, some k => endNow t .refused (some .closePending) k 0 s
    | .closed, _, _ => completeNow t 0 s
    | .opened, none, _ => completeNow t 0 (putZone z { r with live := .closed } s)
    | _, _, _ => putZone z { r with live := .closing, closingOrder := some t.slot } (keepDirective t 13 s)

/-- ZONE_OPEN (06 R135). -/
def takeZoneOpen (t : Taking) (z : Nat) (s : State) : State :=
  let r := zoneRec s z
  if !committed s then refuseNow t .mapNotCommitted s
  else if !zoneNamed s z then refuseNow t .badOperand s
  else match r.live with
    | .opened => completeNow t 0 s
    | .closed => completeNow t 0 (push [.serve z false] (putZone z { r with live := .opened } s))
    | .closing =>
      let s1 := putZone z { r with live := .opened, closingOrder := none } s
      completeNow t 0 (match r.closingOrder with
        | some k => endDirective k .cancelled none 0 0 s1
        | none => s1)

/-! ### STATION_STATE (09 R171) -/

/-- STATION_STATE (09 R171). -/
def takeStationState (t : Taking) (st state : Nat) (s : State) : State :=
  if !committed s then refuseNow t .mapNotCommitted s
  else if 4095 < st ∨ stationDefined s st = false ∨ 1 < state then refuseNow t .badOperand s
  else
    let closed := decide (state = 1)
    let s1 : State := { s with map := { s.map with liveClosed := tset false s.map.liveClosed st closed } }
    completeNow t 0 (if stationClosed s st = closed then s else availability s1)

end Sys2Proof.Machine
end

