-- ==== Sys2Proof/Machine/Window.lean ====
section
/-! DEFINITION. Window Interface (10): the writes of slots, mirrors and the status block, HOLD, START, POST. -/

namespace Sys2Proof.Machine

/-! ### Revisions (10 R195) -/

def revisionOf (s : State) : WinRec → BitVec 16
  | .slot _ => 0
  | .vehicle v => tget 0 s.win.vehicleRev v
  | .zone z => tget 0 s.win.zoneRev z
  | .shelf st => tget 0 s.win.shelfRev st
  | .status => s.win.statusRev
/-- The revision of a record increased by 2: by 1 before its contents and by 1 after (10 R195). It advances as the write
begins, so a record whose write had begun and is then abandoned (R185, R200) keeps the advanced revision, which its next
write shows. DESIGN CHOICE (unsafe, log 9). -/
def bumpRevision (r : WinRec) (s : State) : State :=
  let n := revisionOf s r + 2
  match r with
  | .slot _ => s
  | .vehicle v => { s with win := { s.win with vehicleRev := tset 0 s.win.vehicleRev v n } }
  | .zone z => { s with win := { s.win with zoneRev := tset 0 s.win.zoneRev z n } }
  | .shelf st => { s with win := { s.win with shelfRev := tset 0 s.win.shelfRev st n } }
  | .status => { s with win := { s.win with statusRev := n } }

/-! ### What a write carries -/

/-- The contents of a mirror record or of the status block. -/
def contentsOf (s : State) : WinRec → List (Nat × List Byte)
  | .slot _ => []
  | .vehicle v => vehicleParts s v
  | .zone z => zoneParts s z
  | .shelf st => shelfParts s st
  | .status => statusParts s
/-- A slot's write: its final progress, result and DONE; or its progress, with TAKEN if that is due (10 R188). -/
def slotParts (s : State) (k : Nat) : List (Nat × List Byte) :=
  let d := slotDueAt s k
  match d.final with
  | some f => progressParts f.progress ++ resultParts f ++ donePart
  | none => match liveAt s k with
    | some l => progressParts (liveProgress l) ++ (if d.taken then takenPart else [])
    | none => []
/-- The parts of a record's write, in order, by offset in the record (10 R188, R195). -/
def partsOf (s : State) (r : WinRec) : List (Nat × List Byte) := match r with
  | .slot k => slotParts s k
  | _ =>
    let n := revisionOf s r
    [(0, leBytes 2 (n + 1).toNat)] ++ contentsOf s r ++ [(0, leBytes 2 (n + 2).toNat)]
/-- Whether a record's write writes a slot's state field. -/
def writesState (s : State) : WinRec → Bool
  | .slot k => decide (slotDueAt s k ≠ {})
  | _ => false
/-- The job of a record's write. -/
def jobOf (s : State) (off : Nat) (r : WinRec) (cs : Causes) : Job :=
  { offset := off, parts := (partsOf s r).map (fun p => (windowAddr s (off + p.1), p.2)), causes := cs,
    stateField := writesState s r, again := none }

/-- A write that carries no cause. -/
def noCauses : Causes := {}

/-! ### Writes fall due (10 R193, R195) -/

def findJob (s : State) (r : WinRec) : Option Job := (s.win.jobs.find? (fun p => decide (p.1 = r))).map (fun p => p.2)
/-- Adds causes to the entry of a record, or a new entry. -/
def defer (r : WinRec) (cs : Causes) : List (WinRec × Causes) → List (WinRec × Causes)
  | [] => [(r, cs)]
  | (q, ds) :: l => if q = r then (q, joinCauses ds cs) :: l else (q, ds) :: defer r cs l
/-- Marks the job of a record to be followed by a further write. -/
def markAgain (r : WinRec) (cs : Causes) (l : List (WinRec × Job)) : List (WinRec × Job) :=
  l.map (fun p => if p.1 = r then (p.1, { p.2 with again := some (match p.2.again with
    | some ds => joinCauses ds cs
    | none => cs) }) else p)
/-- What a write no longer owes once it has begun or been dropped: a slot its TAKEN or result, the status block the newly
filled log record. -/
def clearDue : WinRec → State → State
  | .slot k => putSlotDue k {}
  | .status => fun s => { s with win := { s.win with errorDue := false } }
  | _ => id
/-- The causes a write carries as it begins. Two are told by its contents: a slot's write carries ORDER where it writes DONE
(10 R188, R197); the status block's carries ERROR where it is the first to carry the log record that filled the empty log
(R196), whatever the write fell due for: a log emptied while a write was waiting has none raised. -/
def writeCauses (s : State) (r : WinRec) (cs : Causes) : Causes := match r with
  | .slot k => { order := (slotDueAt s k).final.isSome }
  | .status => { error := s.win.errorDue && s.win.log.isSome }
  | _ => cs
/-- A write begins; one outside the window is dropped and logged, its causes raised (10 R185). R185 logs the window offset of
an access: of a record written in several parts it is the record's own, whichever part it was. DESIGN CHOICE (unsafe,
log 56). -/
def beginWrite (r : WinRec) (cs : Causes) (s : State) : State := match s.win.layout with
  | none => s
  | some l =>
    let off := recordOffset l r
    let cs1 := writeCauses s r cs
    if accessOk s off (recordSize r) then
      let s1 := bumpRevision r (clearDue r s)
      { s1 with win := { s1.win with jobs := s1.win.jobs ++ [(r, jobOf s off r cs1)] } }
    else raiseCauses cs1 (logFault 5 off (clearDue r s))
/-- Whether the write of a record waits among the deferred ones. -/
def isDeferred (s : State) (r : WinRec) : Bool := s.win.deferred.any (fun p => decide (p.1 = r))
/-- A write falls due: deferred under HOLD or with the record's write that still is, behind one in progress, or begun. -/
def schedule (r : WinRec) (cs : Causes) (s : State) : State :=
  if s.win.hold || isDeferred s r then { s with win := { s.win with deferred := defer r cs s.win.deferred } }
  else if (findJob s r).isSome then { s with win := { s.win with jobs := markAgain r cs s.win.jobs } }
  else beginWrite r cs s
def scheduleAll (l : List (WinRec × Causes)) (s : State) : State := l.foldl (fun t p => schedule p.1 p.2 t) s

/-! ### What an event changed (log 10) -/

/-- The fields of a vehicle record that its mirror carries (05 R95; 10, Formats). -/
def shown (r : Vehicle) : Vehicle :=
  { r with hoist := none, jog := none, pos := r.pos.map (fun p => { p with measurable := false }) }
/-- A change of state or of a flag raises FLEET (05 R95, 10 R197). -/
def fleetCause (a b : Vehicle) : Causes :=
  { fleet := !decide (a.state = b.state) || !decide (a.uncertain = b.uncertain) || !decide (a.quarantined = b.quarantined) }
def vehicleDues (a b : State) : List (WinRec × Causes) :=
  ((changedKeys {} a.flt.vehicles b.flt.vehicles).filter (fun v => !decide (shown (veh a v) = shown (veh b v)))).map
    (fun v => (.vehicle v, fleetCause (veh a v) (veh b v)))

/-- A wait of the zone carries a newly set stall-reported mark (06 R138). -/
def newlyStalled (a b : ZoneRec) : Bool :=
  b.waiters.any (fun w => w.stalled && !a.waiters.any (fun x => decide (x.vehicle = w.vehicle) && x.stalled))
/-- A change of live state, or a newly set stall-reported mark, raises TRACK (06 R118, 10 R197). -/
def trackCause (a b : ZoneRec) : Causes := { track := !decide (a.live = b.live) || newlyStalled a b }
/-- The zones whose mirror carries a changed arbiter. -/
def arbiterZones (a b : State) : List Nat :=
  (changedKeys none a.arbiters b.arbiters).filterMap (fun m => (mergeAt b m).map (fun e => e.zone))
def zoneDues (a b : State) : List (WinRec × Causes) :=
  (sortNat (uniq (changedKeys {} a.zones b.zones ++ arbiterZones a b))).map
    (fun z => (.zone z, trackCause (zoneRec a z) (zoneRec b z)))
def shelfDues (a b : State) : List (WinRec × Causes) :=
  (sortNat (uniq (changedKeys {} a.buf.shelves b.buf.shelves ++
    (changedKeys false a.map.liveClosed b.map.liveClosed).filter (isShelf b)))).map (fun st => (.shelf st, noCauses))
/-- Every zone record and every shelf record (01 R13, R22). -/
def allTrack : List (WinRec × Causes) :=
  (List.range Config.zoneCount).map (fun z => (.zone z, noCauses)) ++ (List.range Config.stationCount).map (fun st => (.shelf st, noCauses))
def trackDues (a b : State) : List (WinRec × Causes) :=
  if committed a = committed b then zoneDues a b ++ shelfDues a b else allTrack
/-- A slot's write is due at a change of its progress, and when TAKEN or a result comes to be owed (03 R53, 10 R188). -/
def slotChanged (a b : State) (k : Nat) : Bool :=
  (!decide (slotDueAt b k = {}) && !decide (slotDueAt a k = slotDueAt b k)) ||
    (match liveAt a k, liveAt b k with
     | some x, some y => !decide (liveProgress x = liveProgress y)
     | _, _ => false)
def slotDues (a b : State) : List (WinRec × Causes) :=
  ((sortNat (uniq (changedKeys none a.orders b.orders ++ changedKeys {} a.win.slotDue b.win.slotDue))).filter (slotChanged a b)).map
    (fun k => (.slot k, { order := (slotDueAt b k).final.isSome }))
/-- Whether a bay's occupancy changed (10 R196). -/
def occupancyChanged (a b : State) : Bool :=
  !decide (a.zones = b.zones ∧ committed a = committed b) &&
    (List.range Config.bayCount).any (fun i => !decide (occupancy a i = occupancy b i))
def statusDues (a b : State) : List (WinRec × Causes) := if occupancyChanged a b then [(.status, noCauses)] else []
/-- The records an act has changed that took the part from `a` to `b`, with the causes their writes carry. -/
def dues (a b : State) : List (WinRec × Causes) := slotDues a b ++ vehicleDues a b ++ trackDues a b ++ statusDues a b
/-- What an act and the acts after it have changed: one write a record, its causes joined. -/
def joinDues (first later : List (WinRec × Causes)) : List (WinRec × Causes) := later.foldl (fun l p => defer p.1 p.2 l) first

/-- Writes the status block for each change of the error log; a failing write may itself change the log (10 R196). -/
def settleLog : Nat → Option LogRecord → State → State
  | 0, _, s => s
  | f + 1, old, s =>
    if s.win.log = old then s
    else settleLog f s.win.log (schedule .status noCauses s)

/-! ### Entering RUNNING (10 R187) -/

/-- Every record of the mirrors and the status block. -/
def allRecords : List WinRec :=
  (List.range Config.vehicleCount).map .vehicle ++ (List.range Config.zoneCount).map .zone ++
    (List.range Config.stationCount).map .shelf ++ [.status]
/-- A revision table with every entry increased by 2. -/
def bumpAll (n : Nat) (t : Table (BitVec 16)) : Table (BitVec 16) :=
  (List.range n).filterMap (fun i => if tget 0 t i + 2 = 0 then none else some (i, tget 0 t i + 2))
/-- The full write, which raises no cause. With the range enable set, every area lies in the window (check 6). -/
def fullWrite (l : Layout) (s : State) : State :=
  if s.win.hold || !rangeEnable s then scheduleAll (allRecords.map (fun r => (r, noCauses))) s
  else
    { s with win := { s.win with
        jobs := s.win.jobs ++ allRecords.map (fun r => (r, jobOf s (recordOffset l r) r {})),
        vehicleRev := bumpAll Config.vehicleCount s.win.vehicleRev, zoneRev := bumpAll Config.zoneCount s.win.zoneRev,
        shelfRev := bumpAll Config.stationCount s.win.shelfRev, statusRev := s.win.statusRev + 2 } }

/-- The record writes of an event fall due, then the status block's for a change of an occupancy or of the error log. -/
def scheduleDues (ds : List (WinRec × Causes)) (a b : State) : State :=
  let s1 := scheduleAll (ds.filter (fun p => !decide (p.1 = .status))) b
  settleLog 4 a.win.log (if ds.any (fun p => decide (p.1 = .status)) ∧ s1.win.log = a.win.log then schedule .status noCauses s1 else s1)
/-- What WIN does at the end of an event that took the part from `a` to `b` and changed the records of `ds`: while the
engine is RUNNING their writes fall due; as it enters RUNNING, the full write does (10 R187, R196). -/
def finishWith (ds : List (WinRec × Causes)) (a b : State) : State :=
  if b.win.engine ≠ .running then b
  else if a.win.engine ≠ .running then
    match b.win.layout with
    | some l => settleLog 4 b.win.log (fullWrite l b)
    | none => b
  else scheduleDues ds a b
/-- The end of an event of one act. -/
def finish (a b : State) : State := finishWith (dues a b) a b

/-! ### A write completes (10 R185, R194, R195, R197) -/

/-- A write that was deferred falls due again, with nothing that defers it: behind one of the same record in progress, or
begun. The first that is begun ends it: the others wait for a write to complete (10 R194; log 11). -/
def beginDeferred : List (WinRec × Causes) → State → State
  | [], s => s
  | (r, cs) :: rest, s =>
    let s0 : State := { s with win := { s.win with deferred := rest } }
    if (findJob s0 r).isSome then beginDeferred rest { s0 with win := { s0.win with jobs := markAgain r cs s0.win.jobs } }
    else
      let s1 := beginWrite r cs s0
      if (findJob s1 r).isSome then s1 else beginDeferred rest s1
/-- The next deferred write is made, unless HOLD is set (10 R194). -/
def resumeDeferred (s : State) : State := if s.win.hold then s else beginDeferred s.win.deferred s

/-- A DMA write completes (10 R185, R195, R197): the record is written again if it has changed meanwhile, and the next
deferred write is made. What begins so is not joined with the status block's write for the log that a failed write fills:
the block may be written once more. DESIGN CHOICE (unsafe, log 10). One that failed is logged with its record's offset,
whichever part failed. DESIGN CHOICE (unsafe, log 56). -/
def writeDone (r : WinRec) (ok : Bool) (s : State) : State := match findJob s r with
  | none => s
  | some j =>
    let s1 : State := { s with win := { s.win with jobs := s.win.jobs.filter (fun p => !decide (p.1 = r)) } }
    let s2 : State := if ok then { s1 with window := writeParts s1.window j.parts } else logFault 3 j.offset s1
    let s3 := raiseCauses j.causes s2
    resumeDeferred (match j.again with
      | some cs => schedule r cs s3
      | none => s3)

/-! ### HOLD (10 R193, R194) -/

def holdRead (s : State) : State :=
  { s with out := s.out ++ [.holdValue s.win.hold], win := { s.win with hold := true } }
/-- HOLD becomes clear: the deferred writes are made, one at a time (10 R194; log 11). -/
def holdClear (s : State) : State :=
  if s.win.hold then resumeDeferred { s with win := { s.win with hold := false } } else s

/-! ### CAUSE and ENABLE (10 R197) -/

def causeClear (w : BitVec 64) (s : State) : State :=
  { s with win := { s.win with cause := allCauses.foldl (fun cs c =>
      if hasCause (causesOf w) c then withCause cs c false else cs) s.win.cause } }
/-- An enable set from clear while its cause is pending sends the cause's message (log 21). -/
def enableWrite (w : BitVec 64) (s : State) : State :=
  let new := causesOf w
  { s with out := s.out ++ (allCauses.filter (fun c => hasCause s.win.cause c && hasCause new c && !hasCause s.win.enable c)).map .message,
           win := { s.win with enable := new } }

/-! ### START (10 R186) -/

/-- A failed START check (10 R186). -/
def layoutFails (n : Nat) (s : State) : State :=
  logError .windowFault (faultDetail 4 n)
    { s with win := { s.win with engine := .layoutFault, layoutCheck := n, headerRead := false } }
/-- The START strobe: a header read begins; one that lies outside the window fails at once (log 36). -/
def startStrobe (s : State) : State :=
  if s.win.engine = .running ∨ s.win.headerRead = true then s
  else if accessOk s 0 64 then { s with win := { s.win with headerRead := true } }
  else layoutFails (if registersValid s then 2 else 1) s

/-- The six areas with their sizes (10 R186, check 6). -/
def areas (l : Layout) : List (Nat × Nat) :=
  [(l.orderTable, l.n * 256), (l.statusBlock, 256), (l.vehicleMirror, 32768), (l.zoneMirror, 32768), (l.shelfMirror, 65536),
   (l.staging, l.stagingSize)]
/-- Whether two areas share a byte. -/
def overlap (a b : Nat × Nat) : Bool :=
  decide (0 < a.2) && decide (0 < b.2) && decide (a.1 < b.1 + b.2) && decide (b.1 < a.1 + a.2)
/-- Whether two areas of a list overlap. -/
def anyOverlap : List (Nat × Nat) → Bool
  | [] => false
  | a :: l => l.any (overlap a) || anyOverlap l
/-- The first START check that fails, 3 to 7 (10 R186); 0 if none does. Check 6 holds an empty staging area too to an offset
within the window: R186 excepts a staging size of 0 from check 7 only. DESIGN CHOICE (unsafe, log 58). -/
def layoutCheckOf (size version : Nat) (l : Layout) : Nat :=
  if version ≠ 1 then 3
  else if l.n % 32 ≠ 0 ∨ l.n < 32 ∨ 1024 < l.n then 4
  else if (areas l).any (fun a => !decide (a.1 % 64 = 0)) || !decide (l.stagingSize % 64 = 0) then 5
  else if (areas l).any (fun a => decide (size < a.1 + a.2)) then 6
  else if anyOverlap ((0, 64) :: areas l) then 7
  else 0
/-- The header read completes (10 R186, R187). -/
def headerDone (r : ReadResult) (s : State) : State :=
  if s.win.headerRead = false then s
  else match windowSize s with
    | none => layoutFails 1 s
    | some size =>
      if !registersValid s then layoutFails 1 s
      else match r with
        | .error => layoutFails 2 s
        | .data bs =>
          let h := parseHeader bs
          let n := layoutCheckOf size h.1 h.2
          if n ≠ 0 then layoutFails n s
          else { s with win := { s.win with engine := .running, layoutCheck := 0, headerRead := false, layout := some h.2 } }

/-! ### POST (10 R189) -/

/-- A notice joins a lane; none where the lane overflows. -/
def noticeRuns (k : Nat) (runs : List Run) : Option (List Run) :=
  match runs.getLast? with
  | some r =>
    if k = r.first + r.count ∧ r.count < Config.runLength then some (runs.dropLast ++ [{ r with count := r.count + 1 }])
    else if runs.length < Config.runLimit then some (runs ++ [{ first := k, count := 1 }])
    else none
  | none => some [{ first := k, count := 1 }]
def putLane (hot : Bool) (l : Lane) (s : State) : State :=
  { s with ink := if hot then { s.ink with hot := l } else { s.ink with normal := l } }
def laneOf (hot : Bool) (s : State) : Lane := if hot then s.ink.hot else s.ink.normal
/-- A write to POST (10 R187, R189). -/
def postNotice (w : BitVec 64) (s : State) : State :=
  let k := w.toNat % 4096
  let hot := w.getLsbD 15
  if s.win.engine ≠ .running then s
  else if slotCount s ≤ k then logError .strayPost (strayDetail k hot 255) s
  else
    let l := laneOf hot s
    match noticeRuns k l.runs with
    | some rs => putLane hot { l with runs := rs } s
    | none => raiseCause .lane (putLane hot { l with overflow := true } s)

/-! ### The window registers (10 R183, R185) -/

def writeBase (w : BitVec 64) (s : State) : State :=
  { s with win := { s.win with windowBase := upperBits w ||| (if w.getLsbD 0 then 1 else 0) } }
def writeMask (w : BitVec 64) (s : State) : State := { s with win := { s.win with windowMask := upperBits w } }

end Sys2Proof.Machine
end

