-- ==== Sys2Proof/Machine/Intake.lean ====
section
/-! DEFINITION. Intake (10, section 10.4): the choice of slot reads, takings, cancel checks, stray sightings, the sweep. -/

namespace Sys2Proof.Machine

/-! ### Takings (10 R191, 03 R47) -/

/-- A taken order goes to its owner by its kind (10 R191). -/
def routeOrder (t : Taking) (op : SlotOp) (s : State) : State := match op with
  | .move m => takeMove t m s
  | .mapDir op => takeMap t op s
  | .fleetOpen => takeFleetOpen t s
  | .admitVehicle v pool seg => takeAdmit t v pool seg s
  | .retire v => takeRetire t v s
  | .locate v seg => takeLocate t v seg s
  | .release v => takeRelease t v s
  | .jog v node => takeJog t v node s
  | .poolPolicy bay marks reserve => takePoolPolicy t bay marks reserve s
  | .zoneClose z => takeZoneClose t z s
  | .zoneOpen z => takeZoneOpen t z s
  | .stationState st state => takeStationState t st state s
  | .unknown _ => refuseNow t .badOperand s
/-- An order whose cancel byte is set at intake ends CANCELLED (03 R47). -/
def cancelAtIntake (t : Taking) (op : SlotOp) (s : State) : State := match op with
  | .move _ => cancelledMove t s
  | _ => endNow t .cancelled none 0 0 s
/-- What INK gives an order it takes now (10 R191). -/
def taking (s : State) (slot : Nat) (tag : BitVec 32) : Taking := { slot := slot, tag := tag, seq := s.ink.seq, time := s.clock }
/-- The intake sequence counter increases by 1 (10 R191). -/
def countTaking (s : State) : State := { s with ink := { s.ink with seq := s.ink.seq + 1 } }
/-- INK takes a slot (10 R191). -/
def takeSlot (slot : Nat) (c : SlotContents) (s : State) : State :=
  let t := taking s slot c.tag
  if c.cancel ≠ 0 then cancelAtIntake t c.op (countTaking s) else routeOrder t c.op (countTaking s)

/-- Whether a write of a slot's state field is due, deferred or in progress (10 R190). -/
def stateWritePending (s : State) (k : Nat) : Bool :=
  !decide (slotDueAt s k = {}) || s.win.jobs.any (fun p => decide (p.1 = .slot k) && p.2.stateField)
/-- Whether an order's row can be a taking of its slot now: INK may begin a slot read (10 R190), and the read may find the
slot POSTED (log 3). -/
def takeable (s : State) (slot : Nat) : Bool :=
  decide (s.win.engine = .running) && !s.win.hold && s.ink.read.isNone && decide (slot < slotCount s) && (liveAt s slot).isNone && !stateWritePending s slot
/-- The taking of a POSTED slot that holds an order (log 3). -/
def takeRow (slot : Nat) (tag : BitVec 32) (op : SlotOp) (s : State) : State :=
  if takeable s slot then takeSlot slot { state := 1, cancel := 0, tag := tag, op := op } s else s

/-! ### Cancel checks (03 R65 to R67) -/

/-- A set cancel byte reaches the owner of a live order. -/
def cancelLive (k : Nat) (s : State) : State := match liveAt s k with
  | none => s
  | some (.directive _) => cancelMap k s
  | some (.move r) => match r.state with
    | .pending => finishOrder k .cancelled none .source s
    | .chained => finishOrder k .cancelled none .source s
    | .assigned =>
      let s1 := finishOrder k .cancelled none .source s
      match r.vehicle with
      | some v => toIdle v s1
      | none => s1
    | .picking => putOrder k { r with cancelDeferred := true } s
    | .carrying => putOrder k { r with cancelTooLate := true } s
    | .placing => putOrder k { r with cancelTooLate := true } s

/-! ### Reads (10 R190 to R192) -/

/-- The next unread slot of a lane. -/
def laneNext (l : Lane) : Option Nat := match l.runs with
  | r :: _ => some (r.first + r.done)
  | [] => none
/-- The choice of the next slot to read (10 R190). -/
def nextRead (s : State) : Option SlotRead := match laneNext s.ink.hot with
  | some k => some { slot := k, origin := .hot }
  | none => match s.ink.sweep with
    | some w => some { slot := w.position, origin := .sweep }
    | none => (laneNext s.ink.normal).map (fun k => { slot := k, origin := .normal })

/-- A lane whose overflow flag is set becomes empty: a sweep begins, or the one in progress will repeat (10 R192). -/
def sweepDue (s : State) : State :=
  { s with ink := { s.ink with sweep := match s.ink.sweep with
      | none => some { position := 0 }
      | some w => some { w with again := true } } }
/-- A lane after one more slot of its first run has been acted on (10 R190). -/
def laneRead (l : Lane) : Lane := match l.runs with
  | [] => l
  | r :: rs => if r.done + 1 < r.count then { l with runs := { r with done := r.done + 1 } :: rs } else { l with runs := rs }
/-- The notice that named a slot is consumed (10 R185, R190, R192). -/
def consumeNotice (hot : Bool) (s : State) : State :=
  let l := laneRead (laneOf hot s)
  if l.runs = [] ∧ l.overflow = true then sweepDue (putLane hot { l with overflow := false } s)
  else putLane hot l s
/-- The sweep passes on; after slot N − 1 it ends or begins again (10 R192). -/
def sweepOn (s : State) : State :=
  { s with ink := { s.ink with sweep := match s.ink.sweep with
      | none => none
      | some w =>
        if w.position + 1 < slotCount s then some { w with position := w.position + 1 }
        else if w.again then some { position := 0 }
        else none } }
def consume : Origin → State → State
  | .hot => consumeNotice true
  | .normal => consumeNotice false
  | .sweep => sweepOn

/-- The window offset of a slot. -/
def slotOffset (s : State) (k : Nat) : Nat := (s.win.layout.map (fun l => recordOffset l (.slot k))).getD 0

/-- INK begins its next slot read (10 R190). A read outside the window is abandoned (R185). -/
def readStart (s : State) : State :=
  if s.ink.read.isSome ∨ s.win.hold = true ∨ s.win.engine ≠ .running then s
  else match nextRead s with
    | none => s
    | some rd =>
      if stateWritePending s rd.slot then s
      else if accessOk s (slotOffset s rd.slot) 64 then { s with ink := { s.ink with read := some rd } }
      else consume rd.origin (logFault 1 (slotOffset s rd.slot) s)

/-- A stray sighting: logged for a notice, passed over in a sweep (10 R191). -/
def stray (rd : SlotRead) (state : Nat) (s : State) : State := match rd.origin with
  | .sweep => s
  | .hot => logError .strayPost (strayDetail rd.slot true state) s
  | .normal => logError .strayPost (strayDetail rd.slot false state) s

/-- A slot read is acted on (10 R191). Under HOLD only a POSTED slot without a live order is (log 22). -/
def actOn (rd : SlotRead) (c : SlotContents) (s : State) : State :=
  let live := (liveAt s rd.slot).isSome
  if c.state = 1 ∧ live = false then takeSlot rd.slot c (consume rd.origin s)
  else if s.win.hold then s
  else if (c.state = 1 ∨ c.state = 2) ∧ live = true then
    let s1 := consume rd.origin s
    if c.cancel ≠ 0 then cancelLive rd.slot s1 else s1
  else stray rd c.state (consume rd.origin s)

/-- A slot read completes (10 R185, R191). -/
def readDone (r : ReadResult) (s : State) : State := match s.ink.read with
  | none => s
  | some rd =>
    let s1 : State := { s with ink := { s.ink with read := none } }
    match r with
    | .error => consume rd.origin (logFault 2 (slotOffset s rd.slot) s1)
    | .data bs => actOn rd (parseSlot bs) s1

end Sys2Proof.Machine
end

