-- ==== Sys2Proof/Machine/Transmit.lean ====
section
/-! DEFINITION. The transmitter and LINK_HOLD (08 R153, R160, R161, R167 to R169). -/

namespace Sys2Proof.Machine

/-- The frame of a GRANT or a STAND entry, none for a GRANT of an empty path (08 R161). -/
def authorityFrame (s : State) (v : Nat) (isGrant : Bool) : Option OutFrame :=
  if isGrant then
    let r := veh s v
    if r.path = [] then none else (limitOf s r).map (fun n => .grant r.path n)
  else some .stand
/-- The transmitter takes the first GRANT-queue entry (08 R160, R161). -/
def takeGrant (s : State) : State := match s.tsl.grantQueue with
  | [] => s
  | (v, g) :: q =>
    { s with tsl := { s.tsl with grantQueue := q, mark := .grant,
                                 tx := (authorityFrame s v g).map (fun f => { vehicle := v, frame := f }) } }
/-- The transmitter takes the first HOIST-queue entry (08 R160); the cycle's first HOIST is then taken (09 R180). -/
def takeHoist (s : State) : State := match s.tsl.hoistQueue with
  | [] => s
  | (v, e) :: q =>
    modVeh v (fun r => { r with hoist := r.hoist.map (fun h => { h with sentOnce := true }) })
      { s with tsl := { s.tsl with hoistQueue := q, mark := .hoist, tx := some { vehicle := v, frame := .hoist e } } }
/-- The transmitter, IDLE, takes an entry (08 R160). -/
def transmitTake (s : State) : State :=
  if s.tsl.tx.isSome ∨ s.tsl.linkHold = true then s
  else match s.tsl.grantQueue, s.tsl.hoistQueue with
    | [], _ => takeHoist s
    | _ :: _, [] => takeGrant s
    | _ :: _, _ :: _ => if s.tsl.mark = .grant then takeHoist s else takeGrant s

/-- The frame in transmission has left the part. -/
def frameLeaves (t : Tx) (s : State) : State :=
  { s with tsl := { s.tsl with tx := none }, out := s.out ++ [.frame (outBytes t.vehicle t.frame)] }
/-- A GRANT's transmission completes (08 R161). -/
def grantLeaves (s : State) : State := match s.tsl.tx with
  | some t => match t.frame with
    | .grant _ limit =>
      modLink t.vehicle (fun l => { l with lastSent := .grant, sentLimit := some limit, grantTime := some s.clock }) (frameLeaves t s)
    | _ => s
  | none => s
/-- A STAND's transmission completes (08 R161). -/
def standLeaves (s : State) : State := match s.tsl.tx with
  | some t => match t.frame with
    | .stand => modLink t.vehicle (fun l => { l with lastSent := .stand }) (frameLeaves t s)
    | _ => s
  | none => s
/-- The cycle of a vehicle is told that its HOIST has been sent (05 R107, 08 R161). A send while one before it has no
answer, or after the cycle has left AWAITING, leaves a send not answered BUSY, and the all-busy mark is cleared (R107: the
mark is set while every send has been answered BUSY). DEDUCED (unsafe, log 16). -/
def cycleTold (now : Time) (h : HoistCycle) : HoistCycle :=
  let h1 := if h.phase = .queued then h else { h with allBusy := false }
  if h.phase = .queued ∨ h.phase = .awaiting then
    { h1 with phase := .awaiting, firstSend := match h.firstSend with
      | some t => some t
      | none => some now }
  else h1
/-- A HOIST's transmission completes (08 R161). Of one whose cycle ended meanwhile (R157, R159, R166) the send is counted,
no reply wait starts, and the record has no cycle to tell; if a new cycle is under way by then, the HOIST is no send of
that cycle and is ignored. DESIGN CHOICE (unsafe, log 53). -/
def hoistLeaves (s : State) : State := match s.tsl.tx with
  | some t => match t.frame with
    | .hoist _ =>
      let s1 := frameLeaves t s
      if t.noWait then
        if (veh s t.vehicle).hoist.isSome then s1 else modLink t.vehicle (fun l => { l with sends := l.sends + 1 }) s1
      else
        modVeh t.vehicle (fun r => { r with hoist := r.hoist.map (cycleTold s.clock) })
          (modLink t.vehicle (fun l => { l with sends := l.sends + 1, replyWait := some s.clock }) s1)
    | _ => s
  | none => s

/-! ### LINK_HOLD -/

/-- LINK_HOLD becomes set (08 R167). -/
def linkHoldOn (s : State) : State :=
  let s1 : State := { s with tsl := { s.tsl with linkHold := true, tx := none, grantQueue := [], hoistQueue := [] } }
  let s2 := (tkeys s1.tsl.links).foldl (fun t v => modLink v (fun l => { l with replyWait := none }) t) s1
  (fleet s2).foldl (fun t p => modVeh p.1 unmark t) s2
/-- What a vehicle is sent when LINK_HOLD is cleared (08 R169). -/
def authorityAgain (v : Nat) (r : Vehicle) (s : State) : State :=
  if r.state = .offline ∨ r.state = .lost then s
  else if s.flt.phase = .operating ∧ r.uncertain = false ∧ r.state ≠ .faulted ∧ r.path ≠ [] then queueGrant v s
  else queueStand v s
/-- A QUEUED or AWAITING cycle's HOIST is handed again within the cycle (08 R169; log 17). -/
def hoistAgain (v : Nat) (r : Vehicle) (s : State) : State := match r.hoist with
  | some h => if h.phase = .queued ∨ h.phase = .awaiting then handHoist v false s else s
  | none => s
/-- LINK_HOLD becomes clear (08 R169). -/
def linkHoldOff (s : State) : State :=
  let s1 : State := { s with tsl := { s.tsl with linkHold := false } }
  let s2 := (fleet s1).foldl (fun t p => authorityAgain p.1 p.2 t) s1
  (fleet s2).foldl (fun t p => hoistAgain p.1 p.2 t) s2
/-- CONTROL's LINK_HOLD takes a written value (10 R184). -/
def setLinkHold (b : Bool) (s : State) : State :=
  if s.tsl.linkHold = b then s else if b then linkHoldOn s else linkHoldOff s

end Sys2Proof.Machine
end

