-- ==== Sys2Proof/Machine/Resets.lean ====
section
/-! DEFINITION. Cold and warm reset (10 R199, R200, with each block's own rule), and writes to CONTROL (10 R184). -/

namespace Sys2Proof.Machine

/-- The writes in progress are abandoned: of each, a number of bytes that the spec leaves open has reached host memory
(10 R200; log 8). -/
def abandonWrites : List (WinRec × Job) → State → State
  | [], s => s
  | (_, j) :: l, s =>
    abandonWrites l
      { s with window := writeParts s.window (partsPrefix (Config.landedBytes s.freeIndex) j.parts), freeIndex := s.freeIndex + 1 }

/-- A cold reset (10 R199): the cold values of `State.reset`. Power-on restarts the part clock, a fundamental reset of the
PCIe link does not (00, "Part clock"; log 31). -/
def coldReset (powerOn : Bool) (s : State) : State :=
  let s1 := abandonWrites s.win.jobs s
  { State.reset with
    pending := s1.pending, out := s1.out, freeIndex := s1.freeIndex, window := s1.window,
    clock := if powerOn then 0 else s1.clock }

/-- A zone's record after a warm reset of a COMMITTED map: CLOSING becomes CLOSED, nothing else stays (01 R24, 06 R141). -/
def warmZone (r : ZoneRec) : ZoneRec := { live := if r.live = .opened then .opened else .closed }
/-- The zone records after a warm reset; those that are OPEN and free hold their empty form. -/
def warmZones (t : Table ZoneRec) : Table ZoneRec :=
  t.filterMap (fun p => if p.2.live = .opened then none else some (p.1, warmZone p.2))
/-- The map after a warm reset (01 R24). -/
def warmMap (m : MapStore) : MapStore := if m.phase = .committed then { m with queue := [], run := .idle } else {}

/-- A warm reset (10 R200; 01 R24; 03 R69; 04 R90; 05 R117; 06 R141; 07 R151; 08 R170; 09 R182). -/
def warmReset (s : State) : State :=
  let s1 := abandonWrites s.win.jobs s
  let kept := committed s1
  { State.reset with
    pending := s1.pending, clock := s1.clock, out := s1.out, freeIndex := s1.freeIndex, window := s1.window,
    win := { mapKept := kept, enable := s1.win.enable, windowBase := s1.win.windowBase, windowMask := s1.win.windowMask,
             vehicleRev := s1.win.vehicleRev, zoneRev := s1.win.zoneRev, shelfRev := s1.win.shelfRev, statusRev := s1.win.statusRev },
    map := warmMap s1.map,
    times := if kept then s1.times else [],
    dsp := { agingStart := if kept then some s1.clock else none },
    zones := if kept then warmZones s1.zones else [],
    arbiters := if kept then s1.arbiters.map (fun p => (p.1, p.2.map parked)) else [],
    buf := { racks := if kept then freshRacks s1.clock s1.map.bays else [] } }

/-- CL empties the error log when CE held 1 before the write (10 R184, R198). -/
def clearLog (s : State) : State :=
  if s.win.ce then { s with win := { s.win with log := none, errorDue := false } } else s
/-- A write to CONTROL (10 R184): bit 1 WARM_RESET; else 9 CL; 4 MANUAL_ENABLE, 5 LINK_HOLD, 8 CE; 0 START. -/
def controlWrite (w : BitVec 64) (s : State) : State :=
  if w.getLsbD 1 then warmReset s
  else
    let s1 := if w.getLsbD 9 then clearLog s else s
    let s2 : State := { s1 with win := { s1.win with manualEnable := w.getLsbD 4 } }
    let s3 := setLinkHold (w.getLsbD 5) s2
    let s4 : State := { s3 with win := { s3.win with ce := w.getLsbD 8 } }
    if w.getLsbD 0 then startStrobe s4 else s4

/-- A write to the register at an offset (10 R183; log 37). -/
def registerStore (offset : Nat) (w : BitVec 64) (s : State) : State :=
  if offset = 0 then controlWrite w s
  else if offset = 16 then postNotice w s
  else if offset = 24 then holdClear s
  else if offset = 32 then causeClear w s
  else if offset = 40 then enableWrite w s
  else if offset = 48 then writeBase w s
  else if offset = 56 then writeMask w s
  else s

end Sys2Proof.Machine
end

