-- ==== Sys2Proof/Machine/Vehicles.lean ====
section
/-! DEFINITION. Vehicle frames (05, sections 5.4 to 5.6; 08, sections 8.1, 8.4 and 8.5) and the expiries of the hoist
cycle and of the link. -/

namespace Sys2Proof.Machine

/-! ### Placing a movement (05 R103 to R105) -/

/-- The position of the first segment of a path that ends at a node. -/
def endsAt (s : State) (n : Nat) (p : List Nat) : Option Nat :=
  p.findIdx? (fun k => decide (segTo s k = some n))
/-- The zones of some segments, in travel order. -/
def zonesOf (s : State) (ks : List Nat) : List Nat := ks.filterMap (segZone s)
/-- Each number once, at its first place. -/
def firstOnly (l : List Nat) : List Nat := (uniq l.reverse).reverse
/-- The zones a vehicle has left behind, in the order travelled (05 R103, 06 R128): those it holds that contain neither
its position segment nor a path segment. A zone of which no segment was travelled (05 R119 lets a vehicle hold one) comes
after those, in rising number. DESIGN CHOICE (unsafe, log 48). -/
def leftBehind (before after : State) (v : Nat) (removed : List Nat) : List Nat :=
  let old := veh before v
  let new := veh after v
  let kept := zonesOf after ((new.pos.map (fun p => p.segment)).toList ++ new.path)
  let order := zonesOf before ((old.pos.map (fun p => p.segment)).toList ++ removed) ++ zonesHeld after v
  (firstOnly order).filter (fun z => (zonesHeld after v).contains z && !kept.contains z)
/-- A movement that cannot be placed (05 R104). -/
def unplaced (v : Nat) (s : State) : State :=
  push [.revise v] (queueStand v (modVeh v (fun r => unmark { r with uncertain := true }) s))
/-- The measurement of a single step over a marked segment (02 R35). -/
def measurement (r : Vehicle) (now : Time) : Option (Nat × Nat) := match r.pos with
  | some p => if p.measurable && p.standing.isNone then some (p.segment, min Config.timeLimit (elapsed now p.entry)) else none
  | none => none
/-- The measurable mark a PASS sets (02 R34). -/
def marks (s : State) (r : Vehicle) (k : Nat) (limit : Option Nat) : Bool :=
  !r.uncertain && !decide (r.state = .faulted) && !decide (r.state = .lost) && !decide (segTo s k = limit)
/-- A PASS is accepted at the path segment of index `i` (05 R103). -/
def acceptPass (v i : Nat) (s : State) : State :=
  let r := veh s v
  match r.path.drop (i + 1) with
  | [] => s
  | k :: rest =>
    let m := if i = 0 then measurement r s.clock else none
    let pos : Position := { standing := none, segment := k, entry := s.clock, measurable := marks s r k (limitOf s r) }
    let s1 := putVeh v { r with path := k :: rest, pos := some pos } s
    let s2 := match m with
      | some (seg, t) => measure seg t s1
      | none => s1
    let s3 := windowNotice v s2
    push ((leftBehind s s3 v (r.path.take (i + 1))).map (fun z => .release v z) ++ [.attempt v]) s3
/-- The latest reported node of a record (05 R92). -/
def noteNode (v n : Nat) (s : State) : State := modVeh v (fun r => { r with lastNode := some n }) s
/-- Whether a PASS repeats one already accepted (05 R103; log 19). -/
def repeatPass (s : State) (r : Vehicle) (n : Nat) : Bool := match r.pos with
  | some p => p.standing.isNone && decide (segFrom s p.segment = some n)
  | none => false
/-- A PASS at node `n` (05 R103, R104). -/
def passAt (v n : Nat) (s0 : State) : State :=
  let s := noteNode v n s0
  let r := veh s v
  if r.uncertain then s
  else match endsAt s n r.path.dropLast with
    | some i => acceptPass v i s
    | none => if repeatPass s r n then s else unplaced v s
/-- An ARRIVE is placed at the path segment `k` of index `i` (05 R105; R98 for a retiring record at its limit). A retiring
record that a STATUS RUN with load made HOLDING (R111) may carry an order by then: the record ends all the same, without
arrival handling, and its order stays live as it is. DESIGN CHOICE (unsafe, log 59). -/
def placeArrive (v n i k : Nat) (s : State) : State :=
  let r := veh s v
  let rest := r.path.drop (i + 1)
  let s1 := putVeh v { r with path := rest, pos := some { standing := some n, segment := k } } s
  let behind := (leftBehind s s1 v (r.path.take (i + 1))).map (fun z => Task.release v z)
  if r.retiring ∧ rest = [] then push (behind ++ releases v (segZone s k).toList) (emptyRecord v s1)
  else push (behind ++ (if r.target = some n then [.arrival v] else []) ++ [.attempt v]) s1
/-- An ARRIVE at node `n` (05 R104, R105). -/
def arriveAt (v n : Nat) (s0 : State) : State :=
  let s := noteNode v n s0
  let r := veh s v
  if r.uncertain ∨ standingAt r = some n then s
  else match endsAt s n r.path with
    | some i => placeArrive v n i (r.path.getD i 0) s
    | none => unplaced v s

/-! ### The hoist cycle (05 R108 to R110; 08 R162) -/

/-- Whether a vehicle's cycle awaits a reply. -/
def awaiting (s : State) (v : Nat) : Bool := (veh s v).hoist.any (fun h => decide (h.phase = .awaiting))
/-- TSL's side of a reply or end that passes its tag test: the reply wait stops, a queued resend goes (08 R162). Any
queued HOIST of an AWAITING cycle counts as one: also that which the clearing of LINK_HOLD handed again (R169), and that which
FLT handed after a BUSY and which was still queued when an older resend's completion made the cycle AWAITING. DESIGN CHOICE
(unsafe, log 42). -/
def replyTaken (v : Nat) (s : State) : State :=
  let s1 := modLink v (fun l => { l with replyWait := none }) s
  if awaiting s v then { s1 with tsl := { s1.tsl with hoistQueue := dequeue v s1.tsl.hoistQueue } } else s1
/-- The tag test (08 R162). -/
def tagPasses (s : State) (v tag : Nat) : Bool := decide (tag = (linkAt s v).tag.toNat)
/-- Whether the hoist wait limit has run from a time (05 R108, R109). -/
def hoistWaitOver (s : State) (t : Option Time) : Bool := match t with
  | some t0 => decide (s.map.globals.hoistWaitLimit * 1000 ≤ elapsed s.clock t0)
  | none => false
/-- ACCEPT turns TO_SOURCE into LOADING and TO_DEST into UNLOADING (05 R108). -/
def hoisting : VState → VState
  | .toSource => .loading
  | .toDest => .unloading
  | x => x
/-- A HOIST_REPLY to a cycle: 1 ACCEPT, 2 BUSY, 3 REFUSE (05 R108). -/
def hoistReplied (v ans : Nat) (s : State) : State :=
  let r := veh s v
  match r.hoist with
  | none => s
  | some h =>
    if h.phase ≠ .awaiting then s
    else if ans = 1 then
      putVeh v { r with state := hoisting r.state,
                        hoist := some { h with allBusy := false, phase := .accepted, acceptTime := some s.clock } } s
    else if ans = 2 then
      if hoistWaitOver s h.firstSend then failHoist v h .portNotReady (untouchedPlace h.kind) s
      else putVeh v { r with hoist := some { h with phase := .retryWait, retryFrom := some s.clock } } s
    else
      failHoist v h .hoistRefused (untouchedPlace h.kind) (modVeh v (fun q => { q with quarantined := true }) s)

/-- Sets or clears the placed mark of a shelf (09 R178). -/
def setPlaced (st : Nat) (b : Bool) (s : State) : State :=
  if isShelf s st then putShelf st { shelfAt s st with placed := b } s else s
/-- LOADED with agreeing IDs: CARRYING, TO_DEST, and a drop shelf if the order has none (03 R58, R67; 09 R181). -/
def loadedAgreed (v k : Nat) (o : OrderRec) (s : State) : State :=
  let s1 := putOrder k { o with state := .carrying, loaded := some s.clock,
                                cancelTooLate := o.cancelTooLate || o.cancelDeferred } (endCycle v s)
  let s2 := modVeh v (fun r => { r with state := .toDest }) s1
  let go (t : State) : State := match (orderAt t k).bind (destNode t) with
    | some g => setTarget v g t
    | none => t
  match o.dest, o.chosen with
  | .buffer b, none => match dropChoice s2 b with
    | some st => go (reserveDrop k st s2)
    | none => noShelf k v s2
  | _, _ => go s2
/-- HOIST_END LOADED of a LOAD cycle (03 R58). The source shelf's RESERVED_PICK is freed before a drop shelf is chosen
(09 R181), so the source shelf can be the one chosen. DESIGN CHOICE (unsafe, log 50). -/
def hoistLoaded (v : Nat) (h : HoistCycle) (id : List Byte) (s : State) : State :=
  let s1 := setPlaced h.station false (freePick h.station s)
  match (veh s1 v).current with
  | none => endCycle v s1
  | some k => match orderAt s1 k with
    | none => endCycle v s1
    | some o =>
      let read := if id = [] then none else some id
      let o1 := { o with readId := read }
      if o.carrier.isSome ∧ o.carrier ≠ read then
        toHolding v (endCycle v (rependChained v (failMove k .idMismatch .vehicle (putOrder k o1 s1))))
      else loadedAgreed v k o1 (putOrder k o1 s1)
/-- HOIST_END UNLOADED of an UNLOAD cycle (03 R60). -/
def hoistUnloaded (v : Nat) (h : HoistCycle) (s : State) : State :=
  let s1 := setPlaced h.station true s
  match (veh s1 v).current with
  | some k => completeMove v k s1
  | none => endCycle v s1
/-- A HOIST_END: 1 LOADED, 2 EMPTY_SOURCE, 3 UNLOADED, 4 BLOCKED, 5 JAM; an outcome of the other kind is a JAM (05 R110). -/
def hoistEnded (v outcome : Nat) (id : List Byte) (s : State) : State := match (veh s v).hoist with
  | none => s
  | some h =>
    if h.phase ≠ .awaiting ∧ h.phase ≠ .accepted then s
    else if h.kind = .load ∧ outcome = 1 then hoistLoaded v h id s
    else if h.kind = .load ∧ outcome = 2 then failHoist v h .pickupEmpty .unknown (setPlaced h.station false s)
    else if h.kind = .unload ∧ outcome = 3 then hoistUnloaded v h s
    else if h.kind = .unload ∧ outcome = 4 then failHoist v h .destOccupied .vehicle s
    else hoistJam v s

/-! ### STATUS (05 R111) -/

/-- A STATUS frame's effect on the record (05 R111): condition 1 is FAULT. -/
def statusReported (v cond code load : Nat) (s : State) : State :=
  let r := veh s v
  if cond = 1 then
    if r.state = .faulted then putVeh v { r with fault := .reported code } s else enterFaulted v (.reported code) s
  else if r.state = .faulted then
    let s1 := putVeh v { r with quarantined := true, fault := .none_ } s
    if load ≠ 0 then toHolding v s1 else toIdle v s1
  else if (r.state = .idle ∨ r.state = .parking) ∧ load ≠ 0 then toHolding v s
  else s

/-! ### Authority confirmation (08 R164) -/

/-- Whether a GRANT or STAND is in transmission for a vehicle. -/
def authorityOnWay (s : State) (v : Nat) : Bool := match s.tsl.tx with
  | some t => decide (t.vehicle = v) && (match t.frame with
    | .hoist _ => false
    | _ => true)
  | none => false
/-- The comparison of a frame's held limit with the sent limit (08 R164; log 41). -/
def confirmAuthority (v held : Nat) (s : State) : State :=
  let l := linkAt s v
  if l.lastSent ≠ .grant ∨ queued v s.tsl.grantQueue = true ∨ authorityOnWay s v = true then s
  else if l.sentLimit = some held then putLink v { l with confirm := 0 } s
  else if (match l.grantTime with
      | some t => decide (elapsed s.clock t < s.map.globals.replyWindow)
      | none => false) then s
  else if l.confirm < 3 then queueGrant v (putLink v { l with confirm := l.confirm + 1 } s)
  else enterFaulted v .authStale s

/-! ### Frames (08 R155, R156) -/

/-- A frame from a LOST vehicle (05 R113, 08 R156, R166). The last reported node stays as it was, also at a PASS or ARRIVE:
R113 does not act on the frame otherwise, R92 takes the node of the latest one, accepted or not. DESIGN CHOICE (unsafe,
log 54). -/
def lostFrame (v : Nat) (s : State) : State :=
  let s1 := modVeh v (fun r => { r with state := .faulted, uncertain := true, quarantined := true, fault := .silence }) s
  push [.revise v] (queueStand v (restartSilence v s1))
/-- What FLT and TSL do with a vehicle frame received whole (08 R156); `act` is the part that depends on its kind. -/
def vehicleFrame (v : Nat) (act : State → State) (s : State) : State := match (veh s v).state with
  | .offline => queueStand v s
  | .lost => lostFrame v s
  | _ =>
    let s1 := act (restartSilence v s)
    if s1.flt.phase = .assembly then queueStand v s1 else s1
/-- A reply or end is handed on if its tag test passes (08 R162). -/
def tagged (v tag : Nat) (act : State → State) (s : State) : State :=
  if tagPasses s v tag then act (replyTaken v s) else s

/-- A STATUS frame (05 R111) under the held limit it carries (08 R164). Where that has just made the record FAULTED,
AUTH_STALE, a STATUS RUN is handled as an act of its own: the record has been FAULTED between (05 R95; log 41). -/
def statusFrame (v cond code load held : Nat) (s : State) : State :=
  let c := confirmAuthority v held s
  if cond = 0 ∧ (veh s v).state ≠ .faulted ∧ (veh c v).state = .faulted then push [.recover v load] c
  else statusReported v cond code load c

/-- A frame received whole (08 R155, R156). -/
def wholeFrame (f : InFrame) (s : State) : State := match f with
  | .pass v n h => vehicleFrame v (fun t => passAt v n (confirmAuthority v h t)) s
  | .arrive v n h => vehicleFrame v (fun t => arriveAt v n (confirmAuthority v h t)) s
  | .hoistReply v tag ans => vehicleFrame v (tagged v tag (hoistReplied v ans)) s
  | .hoistEnd v tag out id => vehicleFrame v (tagged v tag (hoistEnded v out id)) s
  | .status v cond code load h => vehicleFrame v (statusFrame v cond code load h) s
  | .scan a seq first last rows => scanFrame (a - 256) seq first last rows s
/-- What reception makes of a frame (08 R155). -/
def judged (d : Verdict) (s : State) : State := match d with
  | .discard kind detail => logError kind detail s
  | .whole f => wholeFrame f s
/-- Whether an inbound frame is disregarded as it arrives (08 R168, R169; log 13). -/
def unheard (early : Bool) (s : State) : Bool := early || s.tsl.linkHold
/-- An inbound frame whose fields the command carries (08 R154, R155). -/
def receive (f : InFrame) (early : Bool) (s : State) : State := if unheard early s then s else judged (verdictOf f) s
/-- An inbound frame as bytes (08 R155; log 14). -/
def receiveBytes (bs : List Byte) (early : Bool) (s : State) : State := if unheard early s then s else judged (examine bs) s

/-! ### Expiries of the cycle and the link -/

/-- The BUSY retry interval has run: FLT hands TSL the HOIST again (05 R108). -/
def busyRetryExpires (v : Nat) (s : State) : State :=
  let r := veh s v
  match r.hoist with
  | some h => match h.phase, h.retryFrom with
    | .retryWait, some t =>
      if s.map.globals.busyRetry ≤ elapsed s.clock t then
        handHoist v false (putVeh v { r with hoist := some { h with phase := .queued, retryFrom := none } } s)
      else s
    | _, _ => s
  | none => s
/-- The busy limit has run in RETRY_WAIT, or in QUEUED after a BUSY (05 R109). -/
def busyLimitExpires (v : Nat) (s : State) : State := match (veh s v).hoist with
  | some h =>
    if (h.phase = .retryWait ∨ h.phase = .queued) ∧ hoistWaitOver s h.firstSend = true then
      failHoist v h .portNotReady (untouchedPlace h.kind) s
    else s
  | none => s
/-- The end limit has run in ACCEPTED: a HOIST_END JAM (05 R109). -/
def endLimitExpires (v : Nat) (s : State) : State := match (veh s v).hoist with
  | some h => if h.phase = .accepted ∧ hoistWaitOver s h.acceptTime = true then hoistJam v s else s
  | none => s
/-- The reply window has run (08 R163): a resend, or NO_REPLY after the third send. Only an AWAITING cycle is told that no
answer came: in RETRY_WAIT and QUEUED, of which R163 says nothing, the all-BUSY mark stays. DESIGN CHOICE (unsafe,
log 49). -/
def replyWaitExpires (v : Nat) (s : State) : State :=
  let l := linkAt s v
  match l.replyWait with
  | none => s
  | some t =>
    if elapsed s.clock t < s.map.globals.replyWindow then s
    else
      let s1 := putLink v { l with replyWait := none } s
      if awaiting s v then
        let s2 := modVeh v (fun r => { r with hoist := r.hoist.map (fun h => { h with allBusy := false }) }) s1
        if 3 ≤ l.sends then enterFaulted v .noReply s2 else queueHoist v s2
      else s1
/-- The silence limit has run: the record goes LOST (08 R166). -/
def silenceExpires (v : Nat) (s : State) : State := match (linkAt s v).silence with
  | none => s
  | some t => if elapsed s.clock t < s.map.globals.silenceLimit then s else enterLost v s

end Sys2Proof.Machine
end

