-- ==== Sys2Proof/Machine/Cascade.lean ====
section
/-! DEFINITION. One event from its command to its end: the effect, what the blocks ask of one another (log 5), and the
window writes that fall due (log 10). -/

namespace Sys2Proof.Machine

/-- One task between blocks. -/
def runTask (t : Task) (s : State) : State := match t with
  | .attempt v => attempt v s
  | .revise v => revise v s
  | .serve z w => serve z w s
  | .release v z => release v z s
  | .reexamine b => reexamine b s
  | .nudge v => nudge v s
  | .parking v => parkingRule v s
  | .offer n => offer n s
  | .arrival v => arrival v s
  | .recover v load => statusReported v 0 0 load s
  | .mapHead => mapHead s

/-- Runs the agenda: the first task, then what it asked for, then the rest. -/
def cascade : Nat → State → State
  | 0, s => s
  | f + 1, s => match s.agenda with
    | [] => s
    | t :: rest =>
      let s1 := runTask t { s with agenda := [] }
      cascade f { s1 with agenda := s1.agenda ++ rest }

/-- What the tasks of an agenda change, each task an act of its own: a value that one task sets and a later one sets back
has changed twice (05 R95; log 10). -/
def cascadeDues : Nat → State → List (WinRec × Causes)
  | 0, _ => []
  | f + 1, s => match s.agenda with
    | [] => []
    | t :: rest =>
      let s0 : State := { s with agenda := [] }
      let s1 := runTask t s0
      joinDues (dues s0 s1) (cascadeDues f { s1 with agenda := s1.agenda ++ rest })

/-- What an event leaves that took the part from `s` to `b` by the command's own effect: what the blocks ask of one another
is done (log 5), and the writes of what changed fall due (log 10). -/
def settle (s b : State) : State :=
  finishWith (joinDues (dues s b) (cascadeDues Config.cascadeBound b)) s (cascade Config.cascadeBound b)

/-- One event whose own effect is `f` (00, "Blocks"; file 95: every step is whole and indivisible). -/
def event (f : State → State) (s : State) : Host.Outcome State Fault Refusal := .next (settle s (f s))

end Sys2Proof.Machine
end

