-- ==== Sys2Proof/Machine/FleetCommands.lean ====
section
/-! DEFINITION. Meanings of the selection steps (04), the inbound frames (08 R154), the expiries (00, "Time arithmetic";
log 12) and the transmitter's steps (08 R160, R161). -/

namespace Sys2Proof.Machine

/-- EVALUATION_START (04 R79). -/
def execEvaluationStart (s : State) : Host.Outcome State Fault Refusal := event startEvaluation s
/-- SCORE_STEP (04 R80). -/
def execScoreStep (s : State) : Host.Outcome State Fault Refusal := event scoreOne s
/-- EVALUATION_COMPLETION (04 R82 to R85). -/
def execEvaluationCompletion (s : State) : Host.Outcome State Fault Refusal := event evaluationCompletes s
/-- AGING_PERIOD_EXPIRY (04 R71). -/
def execAgingPeriodExpiry (s : State) : Host.Outcome State Fault Refusal := event agingExpires s
/-- PASS (05 R103). -/
def execPass (addr node held : Nat) (early : Bool) (s : State) : Host.Outcome State Fault Refusal :=
  event (receive (.pass addr node held) early) s
/-- ARRIVE (05 R105). -/
def execArrive (addr node held : Nat) (early : Bool) (s : State) : Host.Outcome State Fault Refusal :=
  event (receive (.arrive addr node held) early) s
/-- HOIST_REPLY (05 R108). -/
def execHoistReply (addr tag answer : Nat) (early : Bool) (s : State) : Host.Outcome State Fault Refusal :=
  event (receive (.hoistReply addr tag answer) early) s
/-- HOIST_END (05 R110). -/
def execHoistEnd (addr tag outcome : Nat) (id : List Byte) (early : Bool) (s : State) : Host.Outcome State Fault Refusal :=
  event (receive (.hoistEnd addr tag outcome id) early) s
/-- STATUS (05 R111). -/
def execStatus (addr cond code load held : Nat) (early : Bool) (s : State) : Host.Outcome State Fault Refusal :=
  event (receive (.status addr cond code load held) early) s
/-- SCAN (09 R173). -/
def execScan (addr seq first : Nat) (last : Bool) (rows : List Nat) (early : Bool) (s : State) : Host.Outcome State Fault Refusal :=
  event (receive (.scan addr seq first last rows) early) s
/-- BUSY_RETRY_EXPIRY (05 R108). -/
def execBusyRetryExpiry (v : Nat) (s : State) : Host.Outcome State Fault Refusal := event (busyRetryExpires v) s
/-- BUSY_LIMIT_EXPIRY (05 R109). -/
def execBusyLimitExpiry (v : Nat) (s : State) : Host.Outcome State Fault Refusal := event (busyLimitExpires v) s
/-- END_LIMIT_EXPIRY (05 R109). -/
def execEndLimitExpiry (v : Nat) (s : State) : Host.Outcome State Fault Refusal := event (endLimitExpires v) s
/-- STALL_LIMIT_EXPIRY (06 R138). -/
def execStallLimitExpiry (z v : Nat) (s : State) : Host.Outcome State Fault Refusal := event (stallExpires z v) s
/-- CONVOY_EXPIRY (07 R143). -/
def execConvoyExpiry (m : Nat) (s : State) : Host.Outcome State Fault Refusal := event (convoyExpires m) s
/-- TRANSMIT_START (08 R160). -/
def execTransmitStart (s : State) : Host.Outcome State Fault Refusal := event transmitTake s
/-- GRANT_SENT (08 R161). -/
def execGrantSent (s : State) : Host.Outcome State Fault Refusal := event grantLeaves s
/-- HOIST_SENT (08 R161). -/
def execHoistSent (s : State) : Host.Outcome State Fault Refusal := event hoistLeaves s
/-- STAND_SENT (08 R161). -/
def execStandSent (s : State) : Host.Outcome State Fault Refusal := event standLeaves s
/-- REPLY_WAIT_EXPIRY (08 R163). -/
def execReplyWaitExpiry (v : Nat) (s : State) : Host.Outcome State Fault Refusal := event (replyWaitExpires v) s
/-- SILENCE_EXPIRY (08 R166). -/
def execSilenceExpiry (v : Nat) (s : State) : Host.Outcome State Fault Refusal := event (silenceExpires v) s
/-- RACK_SILENCE_EXPIRY (09 R176). -/
def execRackSilenceExpiry (b : Nat) (s : State) : Host.Outcome State Fault Refusal := event (rackExpires b) s
/-- DISCARDED_FRAME (08 R155). -/
def execDiscardedFrame (bytes : List Byte) (early : Bool) (s : State) : Host.Outcome State Fault Refusal :=
  event (receiveBytes bytes early) s

end Sys2Proof.Machine
end

