-- ==== Sys2Proof/Machine/HostCommands.lean ====
section
/-! DEFINITION. Meanings of the register commands and of the completions of window writes and of the header read (10). -/

namespace Sys2Proof.Machine

/-- COLD_RESET (10 R199). -/
def execColdReset (powerOn : Bool) (s : State) : Host.Outcome State Fault Refusal := .next (coldReset powerOn s)
/-- WARM_RESET (10 R184, R200): the write's other bits are not taken. -/
def execWarmReset (_w : BitVec 64) (s : State) : Host.Outcome State Fault Refusal := .next (warmReset s)
/-- START (10 R184, R186): a CONTROL write with START set. -/
def execStart (w : BitVec 64) (s : State) : Host.Outcome State Fault Refusal := event (controlWrite (w ||| 1#64)) s
/-- START_HEADER_READ_DONE (10 R186, R187). -/
def execStartHeaderReadDone (r : ReadResult) (s : State) : Host.Outcome State Fault Refusal := event (headerDone r) s
/-- LINK_HOLD_SET (08 R167): a CONTROL write with LINK_HOLD set. -/
def execLinkHoldSet (w : BitVec 64) (s : State) : Host.Outcome State Fault Refusal := event (controlWrite (w ||| 0x20#64)) s
/-- LINK_HOLD_CLEAR (08 R169): a CONTROL write with LINK_HOLD clear. -/
def execLinkHoldClear (w : BitVec 64) (s : State) : Host.Outcome State Fault Refusal := event (controlWrite (w &&& ~~~0x20#64)) s
/-- MANUAL_ENABLE (10 R184): a CONTROL write. -/
def execManualEnable (w : BitVec 64) (s : State) : Host.Outcome State Fault Refusal := event (controlWrite w) s
/-- CE (10 R184, R198): a CONTROL write. -/
def execCe (w : BitVec 64) (s : State) : Host.Outcome State Fault Refusal := event (controlWrite w) s
/-- CL (10 R184, R198): a CONTROL write with CL set. -/
def execCl (w : BitVec 64) (s : State) : Host.Outcome State Fault Refusal := event (controlWrite (w ||| 0x200#64)) s
/-- POST (10 R187, R189). -/
def execPost (w : BitVec 64) (s : State) : Host.Outcome State Fault Refusal := event (postNotice w) s
/-- HOLD_READ (10 R193). -/
def execHoldRead (s : State) : Host.Outcome State Fault Refusal := event holdRead s
/-- HOLD_CLEAR (10 R193, R194): a write of any value. -/
def execHoldClear (_w : BitVec 64) (s : State) : Host.Outcome State Fault Refusal := event holdClear s
/-- CAUSE_CLEAR (10 R197). -/
def execCauseClear (w : BitVec 64) (s : State) : Host.Outcome State Fault Refusal := event (causeClear w) s
/-- ENABLE_WRITE (10 R197). -/
def execEnableWrite (w : BitVec 64) (s : State) : Host.Outcome State Fault Refusal := event (enableWrite w) s
/-- REGISTER_WRITE (10 R183). -/
def execRegisterWrite (offset : Nat) (w : BitVec 64) (s : State) : Host.Outcome State Fault Refusal := event (registerStore offset w) s
/-- WINDOW_WRITE_DONE (10 R185, R188, R195, R197). -/
def execWindowWriteDone (r : WinRec) (ok : Bool) (s : State) : Host.Outcome State Fault Refusal := event (writeDone r ok) s

end Sys2Proof.Machine
end

