-- ==== Sys2Proof/Machine/OrderCommands.lean ====
section
/-! DEFINITION. Meanings of the intake commands, of the orders as takings of their slots (log 3), and of the map work's
completions. -/

namespace Sys2Proof.Machine

/-- SLOT_READ_START (10 R190). -/
def execSlotReadStart (s : State) : Host.Outcome State Fault Refusal := event readStart s
/-- SLOT_READ_DONE (10 R191). -/
def execSlotReadDone (r : ReadResult) (s : State) : Host.Outcome State Fault Refusal := event (readDone r) s
/-- MOVE (03 R44, R48 to R52). -/
def execMove (slot : Nat) (tag : BitVec 32) (m : MoveOps) (s : State) : Host.Outcome State Fault Refusal :=
  event (takeRow slot tag (.move m)) s
/-- MAP_OPEN (01 R11, R13). -/
def execMapOpen (slot : Nat) (tag : BitVec 32) (s : State) : Host.Outcome State Fault Refusal :=
  event (takeRow slot tag (.mapDir .opening)) s
/-- MAP_LOAD (01 R11, R14). -/
def execMapLoad (slot : Nat) (tag : BitVec 32) (sec first count offset : Nat) (s : State) : Host.Outcome State Fault Refusal :=
  event (takeRow slot tag (.mapDir (.load sec first count offset))) s
/-- MAP_LOAD_ENTRY_READ_DONE (01 R15, R16). -/
def execMapLoadEntryReadDone (r : ReadResult) (s : State) : Host.Outcome State Fault Refusal := event (loadEntryDone r) s
/-- MAP_COMMIT (01 R11, R17). -/
def execMapCommit (slot : Nat) (tag : BitVec 32) (s : State) : Host.Outcome State Fault Refusal :=
  event (takeRow slot tag (.mapDir .commit)) s
/-- MAP_COMMIT_VALIDATION_DONE (01 R17 to R22). -/
def execMapCommitValidationDone (s : State) : Host.Outcome State Fault Refusal := event validationDone s
/-- ROUTE_PATCH (01 R11, 02 R38). -/
def execRoutePatch (slot : Nat) (tag : BitVec 32) (count offset : Nat) (s : State) : Host.Outcome State Fault Refusal :=
  event (takeRow slot tag (.mapDir (.patch count offset))) s
/-- ROUTE_PATCH_ENTRY_READ_DONE (02 R39, R40). -/
def execRoutePatchEntryReadDone (r : ReadResult) (s : State) : Host.Outcome State Fault Refusal := event (patchEntryDone r) s
/-- ROUTE_PATCH_CHECK_DONE (02 R41, R42). -/
def execRoutePatchCheckDone (s : State) : Host.Outcome State Fault Refusal := event patchCheckDone s
/-- FLEET_OPEN (05 R96). -/
def execFleetOpen (slot : Nat) (tag : BitVec 32) (s : State) : Host.Outcome State Fault Refusal :=
  event (takeRow slot tag .fleetOpen) s
/-- ADMIT (05 R97). -/
def execAdmit (slot : Nat) (tag : BitVec 32) (v pool seg : Nat) (s : State) : Host.Outcome State Fault Refusal :=
  event (takeRow slot tag (.admitVehicle v pool seg)) s
/-- RETIRE (05 R98). -/
def execRetire (slot : Nat) (tag : BitVec 32) (v : Nat) (s : State) : Host.Outcome State Fault Refusal :=
  event (takeRow slot tag (.retire v)) s
/-- LOCATE (05 R99). -/
def execLocate (slot : Nat) (tag : BitVec 32) (v seg : Nat) (s : State) : Host.Outcome State Fault Refusal :=
  event (takeRow slot tag (.locate v seg)) s
/-- RELEASE (05 R100). -/
def execRelease (slot : Nat) (tag : BitVec 32) (v : Nat) (s : State) : Host.Outcome State Fault Refusal :=
  event (takeRow slot tag (.release v)) s
/-- JOG (05 R102). -/
def execJog (slot : Nat) (tag : BitVec 32) (v node : Nat) (s : State) : Host.Outcome State Fault Refusal :=
  event (takeRow slot tag (.jog v node)) s
/-- POOL_POLICY (05 R101). -/
def execPoolPolicy (slot : Nat) (tag : BitVec 32) (bay marks reserve : Nat) (s : State) : Host.Outcome State Fault Refusal :=
  event (takeRow slot tag (.poolPolicy bay marks reserve)) s
/-- ZONE_CLOSE (06 R134). -/
def execZoneClose (slot : Nat) (tag : BitVec 32) (z : Nat) (s : State) : Host.Outcome State Fault Refusal :=
  event (takeRow slot tag (.zoneClose z)) s
/-- ZONE_OPEN (06 R135). -/
def execZoneOpen (slot : Nat) (tag : BitVec 32) (z : Nat) (s : State) : Host.Outcome State Fault Refusal :=
  event (takeRow slot tag (.zoneOpen z)) s
/-- STATION_STATE (09 R171). -/
def execStationState (slot : Nat) (tag : BitVec 32) (st state : Nat) (s : State) : Host.Outcome State Fault Refusal :=
  event (takeRow slot tag (.stationState st state)) s

end Sys2Proof.Machine
end

