-- ==== Sys2Proof/Machine/Dispatch.lean ====
section
/-! DEFINITION. The meaning of every command: one arm for each. -/

namespace Sys2Proof.Machine

def exec (i : Instr) (s : State) : Host.Outcome State Fault Refusal :=
  match i with
  | .coldReset powerOn => Sys2Proof.Machine.execColdReset powerOn s
  | .warmReset w => Sys2Proof.Machine.execWarmReset w s
  | .start w => Sys2Proof.Machine.execStart w s
  | .startHeaderReadDone r => Sys2Proof.Machine.execStartHeaderReadDone r s
  | .linkHoldSet w => Sys2Proof.Machine.execLinkHoldSet w s
  | .linkHoldClear w => Sys2Proof.Machine.execLinkHoldClear w s
  | .manualEnable w => Sys2Proof.Machine.execManualEnable w s
  | .ce w => Sys2Proof.Machine.execCe w s
  | .cl w => Sys2Proof.Machine.execCl w s
  | .post w => Sys2Proof.Machine.execPost w s
  | .holdRead => Sys2Proof.Machine.execHoldRead s
  | .holdClear w => Sys2Proof.Machine.execHoldClear w s
  | .causeClear w => Sys2Proof.Machine.execCauseClear w s
  | .enableWrite w => Sys2Proof.Machine.execEnableWrite w s
  | .registerWrite offset w => Sys2Proof.Machine.execRegisterWrite offset w s
  | .windowWriteDone r ok => Sys2Proof.Machine.execWindowWriteDone r ok s
  | .slotReadStart => Sys2Proof.Machine.execSlotReadStart s
  | .slotReadDone r => Sys2Proof.Machine.execSlotReadDone r s
  | .move slot tag m => Sys2Proof.Machine.execMove slot tag m s
  | .mapOpen slot tag => Sys2Proof.Machine.execMapOpen slot tag s
  | .mapLoad slot tag sec first count offset => Sys2Proof.Machine.execMapLoad slot tag sec first count offset s
  | .mapLoadEntryReadDone r => Sys2Proof.Machine.execMapLoadEntryReadDone r s
  | .mapCommit slot tag => Sys2Proof.Machine.execMapCommit slot tag s
  | .mapCommitValidationDone => Sys2Proof.Machine.execMapCommitValidationDone s
  | .routePatch slot tag count offset => Sys2Proof.Machine.execRoutePatch slot tag count offset s
  | .routePatchEntryReadDone r => Sys2Proof.Machine.execRoutePatchEntryReadDone r s
  | .routePatchCheckDone => Sys2Proof.Machine.execRoutePatchCheckDone s
  | .fleetOpen slot tag => Sys2Proof.Machine.execFleetOpen slot tag s
  | .admitVehicle slot tag v pool seg => Sys2Proof.Machine.execAdmit slot tag v pool seg s
  | .retire slot tag v => Sys2Proof.Machine.execRetire slot tag v s
  | .locate slot tag v seg => Sys2Proof.Machine.execLocate slot tag v seg s
  | .release slot tag v => Sys2Proof.Machine.execRelease slot tag v s
  | .jog slot tag v node => Sys2Proof.Machine.execJog slot tag v node s
  | .poolPolicy slot tag bay marks reserve => Sys2Proof.Machine.execPoolPolicy slot tag bay marks reserve s
  | .zoneClose slot tag z => Sys2Proof.Machine.execZoneClose slot tag z s
  | .zoneOpen slot tag z => Sys2Proof.Machine.execZoneOpen slot tag z s
  | .stationState slot tag st state => Sys2Proof.Machine.execStationState slot tag st state s
  | .evaluationStart => Sys2Proof.Machine.execEvaluationStart s
  | .scoreStep => Sys2Proof.Machine.execScoreStep s
  | .evaluationCompletion => Sys2Proof.Machine.execEvaluationCompletion s
  | .agingPeriodExpiry => Sys2Proof.Machine.execAgingPeriodExpiry s
  | .pass addr node held early => Sys2Proof.Machine.execPass addr node held early s
  | .arrive addr node held early => Sys2Proof.Machine.execArrive addr node held early s
  | .hoistReply addr tag answer early => Sys2Proof.Machine.execHoistReply addr tag answer early s
  | .hoistEnd addr tag outcome id early => Sys2Proof.Machine.execHoistEnd addr tag outcome id early s
  | .status addr cond code load held early => Sys2Proof.Machine.execStatus addr cond code load held early s
  | .scan addr seq first last rows early => Sys2Proof.Machine.execScan addr seq first last rows early s
  | .busyRetryExpiry v => Sys2Proof.Machine.execBusyRetryExpiry v s
  | .busyLimitExpiry v => Sys2Proof.Machine.execBusyLimitExpiry v s
  | .endLimitExpiry v => Sys2Proof.Machine.execEndLimitExpiry v s
  | .stallLimitExpiry z v => Sys2Proof.Machine.execStallLimitExpiry z v s
  | .convoyExpiry m => Sys2Proof.Machine.execConvoyExpiry m s
  | .transmitStart => Sys2Proof.Machine.execTransmitStart s
  | .grantSent => Sys2Proof.Machine.execGrantSent s
  | .hoistSent => Sys2Proof.Machine.execHoistSent s
  | .standSent => Sys2Proof.Machine.execStandSent s
  | .replyWaitExpiry v => Sys2Proof.Machine.execReplyWaitExpiry v s
  | .silenceExpiry v => Sys2Proof.Machine.execSilenceExpiry v s
  | .rackSilenceExpiry bay => Sys2Proof.Machine.execRackSilenceExpiry bay s
  | .discardedFrame bytes early => Sys2Proof.Machine.execDiscardedFrame bytes early s

end Sys2Proof.Machine
end

