-- ==== Sys2Proof/Machine/Step.lean ====
section
/-! DEFINITION. One step of the block: the command at the front of the queue, or a millisecond of the part clock. -/

namespace Sys2Proof.Machine

/-- One step. With no command waiting, one millisecond of the part clock passes. DESIGN CHOICE (log 1). -/
def step (s : State) : Host.Outcome State Fault Refusal :=
  match s.pending with
  | [] => .next { s with clock := s.clock + 1 }
  | c :: rest => exec c { s with pending := rest }

/-- Puts the command a word spells at the front of the queue; the table gives no row bits, so no word spells one. -/
def State.withFetchWord (s : State) (nbits w : Nat) : State :=
  match Sys2Proof.decodeTableWord nbits w with
  | none => s
  | some c => { s with pending := c :: s.pending }

end Sys2Proof.Machine
end

