-- ==== Sys2Proof/Safety.lean ====
section
/-! DEFINITION. The terms in which claims about the block are made: what an event leaves when WIN's writes are set aside,
where a write lands, and what holds of every state the block can be in. -/

namespace Sys2Proof.Machine

/-! ### Events and frames -/

/-- Everything but WIN and what has left the part: the other ten blocks, the part clock, the queues, host memory. -/
def blocks (s : State) : State := { s with win := {}, out := [] }
/-- WIN without its writer, its error log and its pending causes: the engine, the layout, HOLD, the register fields. -/
def settings (w : Win) : Win :=
  { w with ce := false, cause := {}, log := none, errorDue := false, vehicleRev := [], zoneRev := [], shelfRev := [],
           statusRev := 0, deferred := [], jobs := [], slotDue := [] }
/-- Two states agree in every block and in WIN's settings: they differ at most in the window writes that are due or in
progress, in the error log, in the pending causes, and in the messages sent. -/
def Agree (t b : State) : Prop := blocks t = blocks b ∧ settings t.win = settings b.win
/-- No request between blocks is left over from an earlier event (log 5). -/
def Quiet (s : State) : Prop := s.agenda = []

/-- What an event of two acts leaves that took the part from `s` to `b` and from there to `c` (log 10). -/
def twoActs (s b c : State) : State := finishWith (joinDues (dues s b) (dues b c)) s c

/-! ### Takings (10 R188, R191) -/

/-- What a slot is owed whose directive is taken and ends in one event (03 R64, 10 R188). -/
def directiveDone (s : State) (tag : BitVec 32) (code : ResultCode) (reason : Option Reason) (detail flags : Nat) : SlotDue :=
  { taken := false,
    final := some
      { progress := { state := 0, flags := 0, vehicle := none, shelf := none, taken := some s.clock, assigned := none,
                      loaded := none, ended := some s.clock, seq := s.ink.seq },
        code := code, reason := reason, flags := flags, detail := detail, place := .none_, readId := none, vehicle := none,
        dest := none, tag := tag } }
/-- The taking of a directive that ends at once: the sequence counter has moved on, the slot is owed its result; `b` is what
the directive did. -/
def endsDirective (s : State) (slot : Nat) (tag : BitVec 32) (code : ResultCode) (reason : Option Reason) (detail flags : Nat)
    (b : State) : State :=
  { b with ink := { b.ink with seq := s.ink.seq + 1 },
           win := { b.win with slotDue := tset {} b.win.slotDue slot (directiveDone s tag code reason detail flags) } }
/-- The taking of a directive that ends COMPLETED. -/
def completes (s : State) (slot : Nat) (tag : BitVec 32) (b : State) : State := endsDirective s slot tag .completed none 0 0 b
/-- The taking of a directive that ends REFUSED and does nothing else. -/
def refuses (s : State) (slot : Nat) (tag : BitVec 32) (reason : Reason) : State :=
  endsDirective s slot tag .refused (some reason) 0 0 s
/-- The taking of a directive that stays live: its record is kept, the slot is owed TAKEN. -/
def keepsDirective (s : State) (slot : Nat) (tag : BitVec 32) (kind : Nat) (b : State) : State :=
  { b with ink := { b.ink with seq := s.ink.seq + 1 },
           orders := tset none b.orders slot (some (.directive { kind := kind, tag := tag, seq := s.ink.seq, taken := s.clock })),
           win := { b.win with slotDue := tset {} b.win.slotDue slot { taken := true } } }
/-- What a slot is owed whose MOVE, of record `r`, is taken and ends in one event (03 R50, R64). -/
def moveDone (r : OrderRec) (code : ResultCode) (reason : Option Reason) (detail : Nat) (place : Place) : SlotDue :=
  { taken := false, final := some (moveFinal r code reason detail place) }

/-- The record a MOVE is refused with: no source is shown, `b` is its destination, ended as it is taken (03 R50, R64; log 23). -/
def refusedRecord (s : State) (tag : BitVec 32) (m : MoveOps) (b : Dest) : OrderRec :=
  { seq := s.ink.seq, cls := min 3 m.cls, source := .station 0, dest := b,
    carrier := if m.idLength = 0 then none else some (m.carrier.take m.idLength), tag := tag, state := .pending,
    classClamped := decide (3 < m.cls), taken := some s.clock, ended := some s.clock }
/-- The taking of a MOVE that ends REFUSED and does nothing else. -/
def refusesMove (s : State) (slot : Nat) (tag : BitVec 32) (m : MoveOps) (b : Dest) (reason : Reason) (detail : Nat) : State :=
  let due := moveDone (refusedRecord s tag m b) .refused (some reason) detail .source
  { s with ink := { s.ink with seq := s.ink.seq + 1 }, win := { s.win with slotDue := tset {} s.win.slotDue slot due } }

/-! ### Frames -/

/-- The part once a vehicle's frame is heard: its silence timer runs anew, the held limit has been compared (08 R156, R164). -/
def heard (v held : Nat) (s : State) : State := confirmAuthority v held (restartSilence v s)
/-- In ASSEMBLY every frame of a vehicle is answered with a STAND (08 R156). -/
def answered (v : Nat) (b : State) : State := if b.flt.phase = .assembly then queueStand v b else b

/-! ### Where writes land -/

/-- The address of the byte `i` places into a run of bytes that starts at `a`. -/
def byteAddr (a i : Nat) : Nat := if i = 0 then a else addrAdd a i
/-- Whether one of a record's parts covers an address. -/
def covers (ps : List (Nat × List Byte)) (x : Nat) : Bool :=
  ps.any (fun p => (List.range p.2.length).any (fun i => decide (byteAddr p.1 i = x)))

/-! ### Invariants -/

/-- A lane holds at most 16 runs of 1 to 64 slots, each with a slot still unread (10 R189, R190). -/
def laneOk (l : Lane) : Prop :=
  l.runs.length ≤ Config.runLimit ∧ ∀ r ∈ l.runs, r.done < r.count ∧ r.count ≤ Config.runLength
/-- What holds of every state the block can be in: host memory and the records the blocks keep are in their canonical
form (log 7, 01 R2), the lanes keep their bounds (10 R189), the window registers hold no bit that the Formats do not
name (10 R183), the layout check is a check's number or 0 (10 R186), WIN keeps one deferred write a record (10 R193),
and while LINK_HOLD is set nothing is queued and nothing is in transmission (08 R167, R168). -/
structure Sound (s : State) : Prop where
  memory : memoryWf s.window = true
  orders : tableWf none s.orders = true
  vehicles : tableWf {} s.flt.vehicles = true
  zones : tableWf {} s.zones = true
  shelves : tableWf {} s.buf.shelves = true
  links : tableWf {} s.tsl.links = true
  hot : laneOk s.ink.hot
  normal : laneOk s.ink.normal
  mask : upperBits s.win.windowMask = s.win.windowMask
  base : upperBits s.win.windowBase ||| (if s.win.windowBase.getLsbD 0 then 1 else 0) = s.win.windowBase
  check : s.win.layoutCheck ≤ 7
  deferred : (s.win.deferred.map (fun p => p.1)).Nodup
  held : s.tsl.linkHold = true → s.tsl.grantQueue = [] ∧ s.tsl.hoistQueue = [] ∧ s.tsl.tx = none

end Sys2Proof.Machine
end

