-- ==== Sys2Proof/Certificates/Slice0/Obligations.lean ====
section
/-! DEFINITION. The statements about the TD440. `finish s b` is what an event from `s` leaves whose effect is `b`: `b`, with
the window writes of what changed falling due; `settle s b` first does what the blocks of `b` ask of one another, each task
an act whose changes count (log 10). -/

open Sys2Proof Sys2Proof.Machine

/-! ### The machine -/

/-- One step takes the command at the front of the queue and runs it with the queue's rest. With no command waiting, a
step lets one millisecond of the part clock pass and changes nothing else. The model's choice (log 1). -/
def Obligations.StepRunsTheFrontCommand : Prop :=
  (∀ (c : Instr) (rest : List Instr) (s : State), step { s with pending := c :: rest } = exec c { s with pending := rest }) ∧
  (∀ s : State, s.pending = [] → step s = .next { s with clock := s.clock + 1 })

/-- After a cold reset every register is zero except COLD, which is 1; the log, the lanes, the queues of the link and
every table of the other blocks are empty: the map's sections, the policies and live station states, the learned times, the
orders, the vehicles (whose empty form's home pool 0 is the model's choice, log 46), zones, arbiters, links, shelves and racks;
GLOBAL holds its defaults. In every state CONTROL, STATUS,
HOLD, CAUSE and ENABLE show the named bits as the state has them and every other bit as 0, WINDOW_BASE and WINDOW_MASK read
as they stand, an offset that names no register reads as 0, and a read of POST has no value. -/
def Obligations.ResetLeavesTheColdValues : Prop :=
  let s := State.reset
  ((∀ off : Nat, off ≠ 16 → readRegister s off = some (if off = 8 then 4#64 else 0#64)) ∧
  s.win = { cold := true } ∧ s.win.log = none ∧ s.win.layout = none ∧ s.win.jobs = [] ∧ s.win.deferred = [] ∧
  s.ink.hot = { runs := [], overflow := false } ∧ s.ink.normal = { runs := [], overflow := false } ∧
  s.ink.sweep = none ∧ s.ink.seq = 0 ∧ s.ink.read = none ∧
  s.map.phase = .vacant ∧ s.map.queue = [] ∧ (∀ n, nodeAt s n = none) ∧ (∀ n b, routeAt s n b = none) ∧
  (∀ k, segAt s k = none) ∧ (∀ z, zoneAt s z = none) ∧ (∀ m, mergeAt s m = none) ∧ (∀ b, bayAt s b = none) ∧
  (∀ st, stationAt s st = none ∧ stationClosed s st = false) ∧ (∀ d, tget none s.map.decodes d = none) ∧
  (∀ b, tget {} s.map.policy b = { lend := false, borrow := false, reserve := 0 }) ∧ s.map.run = .idle ∧
  s.map.globals = { lookahead := 3, chainWindow := 0, lendPenalty := 0, hoistAllowance := 0, agingPeriod := 30, stallLimit := 60,
                    hoistWaitLimit := 60, busyRetry := 2000, replyWindow := 500, silenceLimit := 3000, rackSilenceLimit := 10000 } ∧
  (∀ k, tget none s.times k = none) ∧ (∀ m, arbiterAt s m = none) ∧
  (∀ b, rackAt s b = { assembly := none, lastSeq := none, timer := none }) ∧
  (∀ k, liveAt s k = none) ∧ s.dsp.evaluating = false ∧ s.dsp.agingStart = none ∧
  s.flt.phase = .assembly ∧ (∀ v, veh s v = {}) ∧ (∀ z, zoneRec s z = {}) ∧
  s.tsl.linkHold = false ∧ s.tsl.tx = none ∧ s.tsl.mark = .hoist ∧ s.tsl.grantQueue = [] ∧ s.tsl.hoistQueue = [] ∧
  (∀ v, linkAt s v = {}) ∧ (∀ st, shelfAt s st = {})) ∧
  ∀ s : State,
    let shows (off : Nat) (bits : Nat → Bool) : Prop := ∃ w, readRegister s off = some w ∧ ∀ i < 64, w.getLsbD i = bits i
    let causes (cs : Causes) (i : Nat) : Bool := match i with
      | 0 => cs.order
      | 1 => cs.fleet
      | 2 => cs.track
      | 3 => cs.error
      | 4 => cs.lane
      | _ => false
    shows 0 (fun i => match i with
      | 4 => s.win.manualEnable
      | 5 => s.tsl.linkHold
      | 8 => s.win.ce
      | _ => false) ∧
    (s.win.layoutCheck ≤ 7 → shows 8 (fun i => match i with
      | 0 => decide (s.win.engine = .layoutFault)
      | 1 => decide (s.win.engine = .running)
      | 2 => s.win.cold
      | 3 => s.win.mapKept
      | 4 => decide (s.map.phase = .opened)
      | 5 => decide (s.map.phase = .committed)
      | 6 => decide (s.flt.phase = .operating)
      | 7 => s.ink.hot.overflow
      | 8 => s.ink.normal.overflow
      | 9 => s.win.hold
      | 10 => s.ink.sweep.isSome
      | 12 => s.win.layoutCheck.testBit 0
      | 13 => s.win.layoutCheck.testBit 1
      | 14 => s.win.layoutCheck.testBit 2
      | _ => false)) ∧
    readRegister s 16 = none ∧ shows 24 (fun i => decide (i = 0) && s.win.hold) ∧ shows 32 (causes s.win.cause) ∧
    shows 40 (causes s.win.enable) ∧ readRegister s 48 = some s.win.windowBase ∧ readRegister s 56 = some s.win.windowMask ∧
    ∀ off ∉ [0, 8, 16, 24, 32, 40, 48, 56], readRegister s off = some 0

/-- Every step keeps what holds of every state: the canonical form of memory and of the records, the bounds of the
lanes, the register bits, one deferred write a record, and a silent transmitter with empty queues under LINK_HOLD. -/
def Obligations.EveryStepKeepsTheStateSound : Prop := ∀ s t : State, Sound s → step s = .next t → Sound t

/-- What every step keeps holds after a cold reset. -/
def Obligations.ResetIsSound : Prop := Sound State.reset

/-! ### Resets -/

/-- COLD_RESET answers the cold state of every block; what waits, what was sent and the count of free values stay, the
clock restarts at power-on only (00, Part clock), and host memory changes at most in bytes of the writes in progress. How much of those
writes lands is free (log 8). -/
def Obligations.ColdResetGivesTheColdState : Prop :=
  ∀ (powerOn : Bool) (s : State), ∃ t : State, exec (.coldReset powerOn) s = .next t ∧
    t = { State.reset with
            pending := s.pending, out := s.out, freeIndex := s.freeIndex + s.win.jobs.length, window := t.window,
            clock := if powerOn then 0 else s.clock } ∧
    (s.win.jobs = [] → t.window = s.window) ∧
    ∀ a : Nat, (∀ j ∈ s.win.jobs, covers j.2.parts a = false) → readByte t.window a = readByte s.window a

/-- WARM_RESET keeps WINDOW_BASE, WINDOW_MASK, ENABLE and the mirror revisions (of a record whose write it cuts off, the
advanced one: the model's choice, log 9); it keeps a COMMITTED map with its live
station states and pool policies and its learned times, each closure as CLOSED, each merge parked (its convoy start kept, the
model's choice, log 47), each rack's silence timer started anew; everything else takes its cold value. Writes in progress land in part (log 8). -/
def Obligations.WarmResetKeepsACommittedMap : Prop :=
  ∀ (w : BitVec 64) (s : State), ∃ t : State, exec (.warmReset w) s = .next t ∧
    t = { State.reset with
            pending := s.pending, clock := s.clock, out := s.out, freeIndex := s.freeIndex + s.win.jobs.length,
            window := t.window,
            win := { cold := false, mapKept := committed s, enable := s.win.enable, windowBase := s.win.windowBase,
                     windowMask := s.win.windowMask, vehicleRev := s.win.vehicleRev, zoneRev := s.win.zoneRev,
                     shelfRev := s.win.shelfRev, statusRev := s.win.statusRev },
            map := if committed s then { s.map with queue := [], run := .idle } else {},
            times := if committed s then s.times else [],
            dsp := { agingStart := if committed s then some s.clock else none },
            zones := if committed s then
                s.zones.filterMap (fun p =>
                  if p.2.live = .opened then none
                  else some (p.1, { holder := none, waiters := [], live := .closed, closingOrder := none, stall := false }))
              else [],
            arbiters := if committed s then
                s.arbiters.map (fun p => (p.1, p.2.map (fun a => { a with favour := a.park, convoy := .inactive }))) else [],
            buf := { shelves := [], racks := if committed s then freshRacks s.clock s.map.bays else [] } } ∧
    (s.win.jobs = [] → t.window = s.window) ∧
    ∀ a : Nat, (∀ j ∈ s.win.jobs, covers j.2.parts a = false) → readByte t.window a = readByte s.window a

/-! ### The writer -/

/-- The window writes that fall due at the end of an event, whatever records its acts changed, change no block and no register
field: only the writer's own records, the error log with CE, the pending causes, and the messages sent. So it is with
`finish`, `twoActs` and `settle`, which end in such a `finishWith`. -/
def Obligations.WritesFallingDueLeaveTheBlocksAlone : Prop :=
  ∀ (ds : List (WinRec × Causes)) (a b : State), Agree (finishWith ds a b) b

/-- While HOLD is set no write begins: an event that logs nothing leaves what it changed as deferred writes, one a
record, with the causes they carry joined, and changes nothing else. What falls due: the write of a slot whose order is
taken or ends, carrying ORDER where it will write DONE, and of one whose live MOVE changes its state, vehicle, chosen shelf,
SHELF_CHOSEN or a timestamp; of a vehicle record whose shown fields change, carrying FLEET for a change of state or of a flag;
of a zone record that changes, or whose merge's arbiter does, carrying TRACK for a change of live state or a newly set stall
mark; of a shelf record that changes, or whose station's live state does; of every zone and shelf record as the map is
committed or opened again, without a cause: R13 and R22 name none, that these raise none is the model's choice (log 30); of
the status block as a bay's occupancy changes. An act that changes nothing has nothing fall due, and of several acts every
change does, its causes joined: the join, one write a record, is the model's (log 10). -/
def Obligations.HoldDefersEveryWrite : Prop :=
  (∀ a b : State, a.win.engine = .running → b.win.engine = .running → b.win.hold = true → b.win.log = a.win.log →
     finish a b =
       { b with win := { b.win with
           deferred := (dues a b).foldl (fun l p => defer p.1 p.2 l) b.win.deferred } }) ∧
  (∀ (a b : State) (k : Nat), tableWf {} a.win.slotDue = true → tableWf {} b.win.slotDue = true →
     slotDueAt b k ≠ {} → slotDueAt a k ≠ slotDueAt b k →
       (WinRec.slot k, ({ order := (slotDueAt b k).final.isSome } : Causes)) ∈ dues a b) ∧
  (∀ (a b : State) (k : Nat) (x y : OrderRec), Sound a → Sound b → orderAt a k = some x → orderAt b k = some y →
     (x.state ≠ y.state ∨ x.vehicle ≠ y.vehicle ∨ x.chosen ≠ y.chosen ∨ x.shelfChosen ≠ y.shelfChosen ∨ x.taken ≠ y.taken ∨
         x.assigned ≠ y.assigned ∨ x.loaded ≠ y.loaded) →
       (WinRec.slot k, ({ order := (slotDueAt b k).final.isSome } : Causes)) ∈ dues a b) ∧
  (∀ (a b : State) (v : Nat), Sound a → Sound b →
     let mirrored (r : Vehicle) : Vehicle :=
       { r with hoist := none, jog := none, pos := r.pos.map (fun p => { p with measurable := false }) }
     let x := veh a v
     let y := veh b v
     mirrored x ≠ mirrored y →
       (WinRec.vehicle v, ({ fleet := !decide (x.state = y.state ∧ x.uncertain = y.uncertain ∧ x.quarantined = y.quarantined) } :
         Causes)) ∈ dues a b) ∧
  (∀ (a b : State) (z : Nat), Sound a → Sound b → committed a = committed b →
     let x := zoneRec a z
     let y := zoneRec b z
     let stalls : Prop := ∃ w ∈ y.waiters, w.stalled = true ∧ ∀ u ∈ x.waiters, u.vehicle = w.vehicle → u.stalled = false
     (x ≠ y ∨ ∃ m e, tableWf none a.arbiters = true ∧ tableWf none b.arbiters = true ∧ arbiterAt a m ≠ arbiterAt b m ∧
         mergeAt b m = some e ∧ e.zone = z) →
       ∃ track : Bool, (track = true ↔ x.live ≠ y.live ∨ stalls) ∧
         (WinRec.zone z, ({ track := track } : Causes)) ∈ dues a b) ∧
  (∀ (a b : State) (st : Nat), Sound a → Sound b → committed a = committed b →
     (shelfAt a st ≠ shelfAt b st ∨ isShelf b st = true ∧ tableWf false a.map.liveClosed = true ∧
         tableWf false b.map.liveClosed = true ∧ stationClosed a st ≠ stationClosed b st) →
       (WinRec.shelf st, ({} : Causes)) ∈ dues a b) ∧
  (∀ a b : State, committed a ≠ committed b →
     (∀ z < 1024, (WinRec.zone z, ({} : Causes)) ∈ dues a b) ∧ ∀ st < 4096, (WinRec.shelf st, ({} : Causes)) ∈ dues a b) ∧
  (∀ (a b : State) (i : Nat), a.map.zones = b.map.zones → i < 64 → occupancy a i ≠ occupancy b i →
     (WinRec.status, ({} : Causes)) ∈ dues a b) ∧
  (∀ a : State, dues a a = []) ∧
  ∀ (first later : List (WinRec × Causes)) (p : WinRec × Causes), p ∈ first ∨ p ∈ later →
    ∃ q ∈ joinDues first later, q.1 = p.1 ∧ ∀ c : Cause, hasCause p.2 c = true → hasCause q.2 c = true

/-- WINDOW_WRITE_DONE: a completed write puts its parts into host memory and raises the causes it carries; one that
ended with an error is logged as WINDOW_FAULT with the window offset and raises them all the same; a change made
meanwhile has the record written again, and the next deferred write is made unless HOLD is set. A completed write changes
host memory in the bytes of its parts only. What a write that begins will write: of a mirror record or the status block the
revision increased by 1, the contents, the revision increased by 2, which is the record's from then on (that it is as soon as
the write has begun is the model's choice, log 9); of a slot its progress with the state TAKEN if that is due, or its final
progress, its result and DONE, carrying ORDER; the status block's carries ERROR exactly where the log holds a newly filled
record that no write of the block has carried yet, and has carried it then. One that does not lie in the window is
dropped: what it would have told is owed no longer, a slot's TAKEN or result too; it is logged, and its causes are raised at
once. That the offset logged is the record's own is the model's choice (log 56). -/
def Obligations.AWriteThatCompletesReachesMemory : Prop :=
  (∀ (r : WinRec) (ok : Bool) (j : Job) (s : State), Quiet s → findJob s r = some j →
     let s1 : State := { s with win := { s.win with jobs := s.win.jobs.filter (fun p => !decide (p.1 = r)) } }
     let s2 : State := if ok then { s1 with window := writeParts s.window j.parts }
       else logError .windowFault (3 * 2 ^ 28 + j.offset % 2 ^ 28) s1
     let s3 : State := raiseCauses j.causes s2
     exec (.windowWriteDone r ok) s = .next (finish s (resumeDeferred (match j.again with
       | some cs => schedule r cs s3
       | none => s3)))) ∧
  (∀ (r : WinRec) (cs : Causes) (l : Layout) (s : State), Sound s → s.win.hold = false → s.win.layout = some l → findJob s r = none →
     (∀ p ∈ s.win.deferred, p.1 ≠ r) →
     ([s.win.vehicleRev, s.win.zoneRev, s.win.shelfRev].all (tableWf 0) && tableWf {} s.win.slotDue) = true →
     let t := schedule r cs s
     let carried : Causes := match r with
       | .slot k => { order := (slotDueAt s k).final.isSome }
       | .status => { error := s.win.errorDue && s.win.log.isSome }
       | _ => cs
     let told : State := match r with
       | .slot k => { s with win := { s.win with slotDue := tset {} s.win.slotDue k {} } }
       | .status => { s with win := { s.win with errorDue := false } }
       | _ => s
     let at_ (o : Nat) : Nat := windowAddr s (recordOffset l r + o)
     (accessOk s (recordOffset l r) (recordSize r) = true → Agree t s ∧ t.win.errorDue = told.win.errorDue ∧ t.win.slotDue = told.win.slotDue ∧
       ∃ j, findJob t r = some j ∧ j.again = none ∧ j.causes = carried ∧
       ((∀ k, r ≠ .slot k) →
         let n := revisionOf s r
         revisionOf t r = n + 2 ∧
         j.parts = [(at_ 0, leBytes 2 (n + 1).toNat)] ++ (contentsOf s r).map (fun p => (at_ p.1, p.2)) ++
           [(at_ 0, leBytes 2 (n + 2).toNat)]) ∧
       ∀ k, r = .slot k →
         let d := slotDueAt s k
         slotDueAt t k = {} ∧
         (∀ f, d.final = some f →
           j.parts = (progressParts f.progress ++ resultParts f).map (fun p => (at_ p.1, p.2)) ++ [(at_ 0, [3])]) ∧
         ∀ o, d.final = none → liveAt s k = some o →
           j.parts = (progressParts (liveProgress o)).map (fun p => (at_ p.1, p.2)) ++ if d.taken then [(at_ 0, [2])] else []) ∧
     (accessOk s (recordOffset l r) (recordSize r) = false →
       t = raiseCauses carried (logError .windowFault (5 * 2 ^ 28 + recordOffset l r % 2 ^ 28) told))) ∧
  (∀ (r : WinRec) (ok : Bool) (s t : State), Quiet s → exec (.windowWriteDone r ok) s = .next t →
     ∀ a : Nat, (∀ j, findJob s r = some j → covers j.parts a = false) → readByte t.window a = readByte s.window a)

/-- A raised cause becomes pending; its message is sent if it was not pending and is enabled; the other causes stay. The
error log: an empty one is filled with kind, detail and time; a full one keeps its record and sets MORE; CE is cleared
by both; while the engine is not RUNNING a filling raises ERROR at once. A write to CAUSE clears the causes whose bits are 1
and leaves the others; a write to ENABLE sets every enable as written, and sends the message of each pending cause whose
enable it sets from clear (log 21). -/
def Obligations.CausesAndTheErrorLog : Prop :=
  (∀ (c : Cause) (s : State),
     raiseCause c s = { s with
       win := { s.win with cause := withCause s.win.cause c true },
       out := s.out ++ (if hasCause s.win.cause c = false ∧ hasCause s.win.enable c = true then [.message c] else []) }) ∧
  (∀ (kind : LogKind) (detail : Nat) (s : State),
     (∀ r, s.win.log = some r →
       logError kind detail s = { s with win := { s.win with ce := false, log := some { r with more := true } } }) ∧
     (s.win.log = none → s.win.engine ≠ .running →
       logError kind detail s =
         raiseCause .error { s with win := { s.win with
           ce := false, log := some { kind := kind, detail := detail, time := s.clock, more := false } } }) ∧
     (s.win.log = none → s.win.engine = .running →
       logError kind detail s =
         { s with win := { s.win with
           ce := false, log := some { kind := kind, detail := detail, time := s.clock, more := false }, errorDue := true } })) ∧
  (∀ (w : BitVec 64) (s : State), Quiet s →
       let w5 : Causes := { order := w.getLsbD 0, fleet := w.getLsbD 1, track := w.getLsbD 2, error := w.getLsbD 3, lane := w.getLsbD 4 }
       exec (.causeClear w) s = .next (finish s { s with win := { s.win with cause :=
         { order := s.win.cause.order && !w5.order, fleet := s.win.cause.fleet && !w5.fleet, track := s.win.cause.track && !w5.track,
           error := s.win.cause.error && !w5.error, lane := s.win.cause.lane && !w5.lane } } }) ∧
       exec (.enableWrite w) s = .next (finish s { s with
         win := { s.win with enable := w5 },
         out := s.out ++ ([Cause.order, .fleet, .track, .error, .lane].filter
           (fun c => hasCause s.win.cause c && hasCause w5 c && !hasCause s.win.enable c)).map .message }))

/-! ### Registers -/

/-- A write to CONTROL that neither resets nor starts and leaves LINK_HOLD as it was: with CL it empties the error log
if CE held 1 before; then MANUAL_ENABLE and CE take the written values. MANUAL_ENABLE, CE and CL are such writes. -/
def Obligations.ControlTakesItsWrittenValues : Prop :=
  ∀ (w : BitVec 64) (s : State), Quiet s → w.getLsbD 1 = false → w.getLsbD 0 = false → w.getLsbD 5 = s.tsl.linkHold →
    let after (cl : Bool) : State := { s with win := { s.win with
      manualEnable := w.getLsbD 4, ce := w.getLsbD 8,
      log := if cl = true ∧ s.win.ce = true then none else s.win.log,
      errorDue := if cl = true ∧ s.win.ce = true then false else s.win.errorDue } }
    exec (.manualEnable w) s = .next (finish s (after (w.getLsbD 9))) ∧
    exec (.ce w) s = .next (finish s (after (w.getLsbD 9))) ∧
    exec (.cl w) s = .next (finish s (after true))

/-- START outside RUNNING, with no header read in flight: the header is read if its 64 bytes lie in the window; else the
engine is LAYOUT_FAULT with check 1 if the window registers are not valid and 2 if they are, logged as WINDOW_FAULT. The
write's MANUAL_ENABLE and CE are taken before it (here with LINK_HOLD left as it was and CL clear). -/
def Obligations.StartReadsTheHeader : Prop :=
  ∀ (w : BitVec 64) (s : State), Quiet s → w.getLsbD 1 = false → w.getLsbD 9 = false → w.getLsbD 5 = s.tsl.linkHold →
    let s1 : State := { s with win := { s.win with manualEnable := w.getLsbD 4, ce := w.getLsbD 8 } }
    let n := if registersValid s then 2 else 1
    exec (.start w) s = .next (finish s
      (if s.win.engine = .running ∨ s.win.headerRead = true then s1
       else if accessOk s 0 64 then { s1 with win := { s1.win with headerRead := true } }
       else logError .windowFault (4 * 2 ^ 28 + n)
         { s1 with win := { s1.win with engine := .layoutFault, layoutCheck := n, headerRead := false } }))

/-- START_HEADER_READ_DONE: the first of the seven checks that fails is shown as the layout check, sets LAYOUT_FAULT and
is logged (that check 6 holds an empty staging area to an offset in the window too is the model's choice, log 58); when every
check passes the layout is recorded and the engine enters RUNNING with the full write. The full write writes every vehicle,
zone and shelf record and the status block, raising no cause: while HOLD is set each is deferred, where the writes deferred
already keep the causes they had and each new one has none; else, with the range enable set, each begins, as a write in
progress of its revision increased by 1, its contents and its revision increased by 2, that carries no cause. Neither raises
a cause, sends a message, logs or changes anything else. With HOLD and the range enable both clear each write is dropped: the
first is logged as a write outside the window, at the first vehicle record's offset (log 56), the others set MORE, and ERROR
is raised, if the log was empty, as the status block's write is abandoned. -/
def Obligations.TheHeaderIsCheckedInOrder : Prop :=
  (∀ (r : ReadResult) (s : State), Quiet s → s.win.engine ≠ .running → s.win.headerRead = true →
     let fails (n : Nat) : State := logError .windowFault (4 * 2 ^ 28 + n)
       { s with win := { s.win with engine := .layoutFault, layoutCheck := n, headerRead := false } }
     exec (.startHeaderReadDone r) s = .next (
       if registersValid s = false then fails 1
       else match r with
         | .error => fails 2
         | .data bs =>
           let l := (parseHeader bs).2
           let size := (windowSize s).getD 0
           let n := if (parseHeader bs).1 ≠ 1 then 3
             else if l.n % 32 ≠ 0 ∨ l.n < 32 ∨ 1024 < l.n then 4
             else if (∃ a ∈ areas l, a.1 % 64 ≠ 0) ∨ l.stagingSize % 64 ≠ 0 then 5
             else if (∃ a ∈ areas l, size < a.1 + a.2) then 6
             else if anyOverlap ((0, 64) :: areas l) = true then 7
             else 0
           let opened : State := { s with win := { s.win with
             engine := .running, layoutCheck := 0, headerRead := false, layout := some l } }
           if n ≠ 0 then fails n
           else if s.win.hold = true ∨ rangeEnable s = true then fullWrite l opened
           else settleLog 4 s.win.log (fullWrite l opened))) ∧
  (∀ (l : Layout) (s : State), s.win.layout = some l → s.win.engine = .running → s.win.hold = false → rangeEnable s = false →
     s.win.jobs = [] → s.win.deferred = [] → s.win.errorDue = false →
     let t : State := { s with win := { s.win with ce := false, log := some (match s.win.log with
       | none => { kind := .windowFault, detail := 5 * 2 ^ 28 + l.vehicleMirror % 2 ^ 28, time := s.clock, more := true }
       | some r => { r with more := true }) } }
     settleLog 4 s.win.log (fullWrite l s) = if s.win.log = none then raiseCause .error t else t) ∧
  (∀ (l : Layout) (s : State), s.win.layout = some l →
     let t := fullWrite l s
     let full (r : WinRec) : Prop :=
       (∃ v < 256, r = .vehicle v) ∨ (∃ z < 1024, r = .zone z) ∨ (∃ st < 4096, r = .shelf st) ∨ r = .status
     Agree t s ∧
     (s.win.hold = true → ∃ new : List (WinRec × Causes),
       t = { s with win := { s.win with deferred := s.win.deferred ++ new } } ∧
       (∀ p ∈ new, p.2 = {} ∧ full p.1 ∧ ∀ q ∈ s.win.deferred, q.1 ≠ p.1) ∧
       ∀ r, full r → ∃ p ∈ s.win.deferred ++ new, p.1 = r) ∧
     (s.win.hold = false → rangeEnable s = true → ∃ begun : List (WinRec × Job),
       t = { s with win := { s.win with
         jobs := s.win.jobs ++ begun, vehicleRev := t.win.vehicleRev, zoneRev := t.win.zoneRev, shelfRev := t.win.shelfRev,
         statusRev := t.win.statusRev } } ∧
       (∀ p ∈ begun, full p.1 ∧ p.2.causes = {} ∧ p.2.again = none ∧
         let n := revisionOf s p.1
         let at_ (o : Nat) : Nat := windowAddr s (recordOffset l p.1 + o)
         p.2.parts = [(at_ 0, leBytes 2 (n + 1).toNat)] ++ (contentsOf s p.1).map (fun q => (at_ q.1, q.2)) ++
           [(at_ 0, leBytes 2 (n + 2).toNat)]) ∧
       ∀ r, full r → (∃ p ∈ begun, p.1 = r) ∧ revisionOf t r = revisionOf s r + 2))

/-- LINK_HOLD_SET, in a write that neither resets nor starts: from clear, the frame in transmission is cut off, both
queues are emptied, every reply wait stops and every measurable mark is cleared, and nothing else of the link or the
fleet changes; already set, LINK_HOLD has no such effect. LINK_HOLD_CLEAR, in such a write, from set: every vehicle that is
not OFFLINE or LOST is queued a GRANT (in OPERATING, without UNCERTAIN, not FAULTED, with a path) or else a STAND, in
increasing number; then the HOIST of every cycle that is QUEUED or AWAITING, with its tag kept and its send count 0. Already
clear, LINK_HOLD has no such effect. -/
def Obligations.LinkHoldSilencesAndResumesTheLink : Prop :=
  ∀ (w : BitVec 64) (s : State), Quiet s → Sound s → w.getLsbD 1 = false → w.getLsbD 0 = false → w.getLsbD 9 = false →
    let s1 : State := { s with win := { s.win with manualEnable := w.getLsbD 4, ce := w.getLsbD 8 } }
    (s.tsl.linkHold = true → exec (.linkHoldSet w) s = .next (finish s s1)) ∧
    (s.tsl.linkHold = false → ∃ b : State, exec (.linkHoldSet w) s = .next (finish s b) ∧
      b = { s1 with tsl := { s.tsl with linkHold := true, tx := none, grantQueue := [], hoistQueue := [], links := b.tsl.links },
                    flt := { s.flt with vehicles := b.flt.vehicles } } ∧
      (∀ v, linkAt b v = { linkAt s v with replyWait := none }) ∧
      (∀ v, veh b v = { veh s v with pos := (veh s v).pos.map (fun p => { p with measurable := false }) })) ∧
    let waits (r : Vehicle) : Bool := r.hoist.any (fun h => decide (h.phase = .queued) || decide (h.phase = .awaiting))
    (s.tsl.linkHold = false → exec (.linkHoldClear w) s =
      .next (finish s { s with win := { s.win with manualEnable := w.getLsbD 4, ce := w.getLsbD 8 } })) ∧
    (s.tsl.linkHold = true → ∃ b : State, exec (.linkHoldClear w) s = .next (finish s b) ∧
      b = { s with win := { s.win with manualEnable := w.getLsbD 4, ce := w.getLsbD 8 },
                   tsl := { s.tsl with
                     linkHold := false, links := b.tsl.links,
                     grantQueue := s.flt.vehicles.filterMap (fun p =>
                       if p.2.state = .offline ∨ p.2.state = .lost then none
                       else some (p.1, decide (s.flt.phase = .operating) && !p.2.uncertain && !decide (p.2.state = .faulted) &&
                         !decide (p.2.path = []))),
                     hoistQueue := s.flt.vehicles.filterMap (fun p => match p.2.hoist with
                       | some h => if waits p.2 then some (p.1, hoistEntry s (linkAt s p.1).tag h) else none
                       | none => none) } } ∧
      ∀ v, linkAt b v = if waits (veh s v) then { linkAt s v with sends := 0 } else linkAt s v)

/-- POST: outside RUNNING it has no effect; a slot number of N or above is logged STRAY_POST; any other number extends
the last run of its lane, or begins a new run while the lane holds fewer than 16, or is dropped, sets the lane's
overflow flag and raises LANE. -/
def Obligations.APostJoinsItsLane : Prop :=
  ∀ (w : BitVec 64) (s : State), Quiet s →
    let k := w.toNat % 4096
    let hot := w.getLsbD 15
    let l := if hot then s.ink.hot else s.ink.normal
    let withLane (m : Lane) (t : State) : State :=
      { t with ink := if hot then { t.ink with hot := m } else { t.ink with normal := m } }
    exec (.post w) s = .next (finish s
      (if s.win.engine ≠ .running then s
       else if slotCount s ≤ k then logError .strayPost (k + (if hot then 2 ^ 15 else 0) + 255 * 2 ^ 16) s
       else match l.runs.getLast? with
        | none => withLane { l with runs := [{ first := k, count := 1 }] } s
        | some r =>
          if k = r.first + r.count ∧ r.count < 64 then
            withLane { l with runs := l.runs.dropLast ++ [{ r with count := r.count + 1 }] } s
          else if l.runs.length < 16 then withLane { l with runs := l.runs ++ [{ first := k, count := 1 }] } s
          else raiseCause .lane (withLane { l with overflow := true } s)))

/-- A read of HOLD returns HOLD from before the read and sets it. A write of any value to HOLD clears it and, from set, has
the deferred writes made one at a time (log 11). The next of them: one of a record with a write in progress marks that to be
followed by another, and one that does not lie in the window is dropped, logged, its causes raised and what it would have told
owed no longer; each then passes on to the next. Any other begins, carrying its causes (a slot's ORDER exactly where it writes
DONE, the status block's ERROR exactly where the log holds a newly filled record that no write of the block has carried yet),
and the rest stay deferred: with HOLD set again before a write completes, none
of them begins. -/
def Obligations.HoldIsSetByAReadAndClearedByAWrite : Prop :=
  (∀ s : State, Quiet s →
     exec .holdRead s = .next (finish s { s with
       out := s.out ++ [.holdValue s.win.hold], win := { s.win with hold := true } })) ∧
  (∀ (w : BitVec 64) (s : State), Quiet s →
     exec (.holdClear w) s = .next (finish s (if s.win.hold then resumeDeferred { s with win := { s.win with hold := false } } else s))) ∧
  (∀ s : State, s.win.hold = true ∨ s.win.deferred = [] → resumeDeferred s = s) ∧
  (∀ (r : WinRec) (cs : Causes) (rest : List (WinRec × Causes)) (l : Layout) (s : State), s.win.hold = false →
     s.win.layout = some l → s.win.deferred = (r, cs) :: rest →
     let s0 : State := { s with win := { s.win with deferred := rest } }
     let carried : Causes := match r with
       | .slot k => { order := (slotDueAt s k).final.isSome }
       | .status => { error := s.win.errorDue && s.win.log.isSome }
       | _ => cs
     let told : State := match r with
       | .slot k => { s0 with win := { s0.win with slotDue := tset {} s0.win.slotDue k {} } }
       | .status => { s0 with win := { s0.win with errorDue := false } }
       | _ => s0
     (∀ j, findJob s r = some j → resumeDeferred s = resumeDeferred { s0 with win := { s0.win with jobs := markAgain r cs s.win.jobs } }) ∧
     (findJob s r = none → accessOk s (recordOffset l r) (recordSize r) = false →
       resumeDeferred s = resumeDeferred (raiseCauses carried
         (logError .windowFault (5 * 2 ^ 28 + recordOffset l r % 2 ^ 28) told))) ∧
     (findJob s r = none → accessOk s (recordOffset l r) (recordSize r) = true → resumeDeferred s = beginWrite r cs s0)) ∧
  (∀ (w : BitVec 64) (r : WinRec) (cs : Causes) (rest : List (WinRec × Causes)) (s : State) (l : Layout), Quiet s → Sound s →
     s.win.engine = .running → s.win.hold = true → s.win.layout = some l → s.win.deferred = (r, cs) :: rest →
     tableWf {} s.win.slotDue = true → findJob s r = none → accessOk s (recordOffset l r) (recordSize r) = true →
     ∃ t : State, exec (.holdClear w) s = .next t ∧ Agree t { s with win := { s.win with hold := false } } ∧
       (∃ j, findJob t r = some j ∧ j.again = none ∧ j.causes = match r with
         | .slot k => { order := (slotDueAt s k).final.isSome }
         | .status => { error := s.win.errorDue && s.win.log.isSome }
         | _ => cs) ∧
       (∀ q, q ≠ r → findJob t q = findJob s q) ∧
       t.win.deferred = rest ∧ t.win.log = s.win.log ∧ t.win.cause = s.win.cause ∧ t.out = s.out)

/-- A write to a register by its offset: CONTROL, POST, HOLD, CAUSE and ENABLE act as their own commands do; a CONTROL write
with WARM_RESET set resets and takes no other bit, whichever row carries it; WINDOW_BASE keeps bits 63:20 and 0, WINDOW_MASK bits 63:20; STATUS and every other offset take no write. -/
def Obligations.RegisterWritesKeepTheNamedBits : Prop :=
  ∀ (w : BitVec 64) (s : State), Quiet s →
    (w.getLsbD 1 = false → exec (.registerWrite 0 w) s = exec (.manualEnable w) s) ∧
    (w.getLsbD 1 = true →
      ∀ c ∈ [Instr.registerWrite 0 w, .start w, .linkHoldSet w, .linkHoldClear w, .manualEnable w, .ce w, .cl w],
        exec c s = exec (.warmReset w) s) ∧
    exec (.registerWrite 16 w) s = exec (.post w) s ∧ exec (.registerWrite 24 w) s = exec (.holdClear w) s ∧
    exec (.registerWrite 32 w) s = exec (.causeClear w) s ∧ exec (.registerWrite 40 w) s = exec (.enableWrite w) s ∧
    exec (.registerWrite 48 w) s = .next (finish s { s with win := { s.win with windowBase := w &&& 0xFFFFFFFFFFF00001#64 } }) ∧
    exec (.registerWrite 56 w) s = .next (finish s { s with win := { s.win with windowMask := w &&& 0xFFFFFFFFFFF00000#64 } }) ∧
    ∀ off : Nat, off ∉ [0, 16, 24, 32, 40, 48, 56] → exec (.registerWrite off w) s = .next (finish s s)

/-! ### Intake -/

/-- SLOT_READ_START: with no read in flight, HOLD clear and the engine RUNNING, the next slot is that of the HOT lane,
else the sweep position, else that of the NORMAL lane; its read begins unless a write of its state field is due,
deferred or in progress. A read whose 64 bytes do not lie in the window is not made: it is logged as WINDOW_FAULT with the
slot's offset, and what named the slot is consumed. -/
def Obligations.TheNextSlotIsRead : Prop :=
  ∀ s : State, Quiet s →
    let first (l : Lane) : Option Nat := l.runs.head?.map (fun r => r.first + r.done)
    let next : Option SlotRead := match first s.ink.hot, s.ink.sweep, first s.ink.normal with
      | some k, _, _ => some { slot := k, origin := .hot }
      | none, some w, _ => some { slot := w.position, origin := .sweep }
      | none, none, some k => some { slot := k, origin := .normal }
      | none, none, none => none
    (s.ink.read.isSome = true ∨ s.win.hold = true ∨ s.win.engine ≠ .running ∨ next = none →
      exec .slotReadStart s = .next (finish s s)) ∧
    ∀ rd, s.ink.read = none → s.win.hold = false → s.win.engine = .running → next = some rd →
      (stateWritePending s rd.slot = true → exec .slotReadStart s = .next (finish s s)) ∧
      (stateWritePending s rd.slot = false → accessOk s (slotOffset s rd.slot) 64 = true →
        exec .slotReadStart s = .next (finish s { s with ink := { s.ink with read := some rd } })) ∧
      (stateWritePending s rd.slot = false → accessOk s (slotOffset s rd.slot) 64 = false →
        exec .slotReadStart s = .next (finish s (consume rd.origin
          (logError .windowFault (1 * 2 ^ 28 + slotOffset s rd.slot % 2 ^ 28) s))))

/-- A notice that has been acted on leaves its lane; a lane that becomes empty with its overflow flag set clears the
flag and begins a sweep at slot 0, or marks the sweep in progress to repeat. A sweep passes on by one slot, and after
slot N − 1 ends, or begins again if its mark is set. SLOT_READ_DONE: a read that fails, and (with HOLD clear) one that
finds neither a POSTED slot to take nor a live order, consumes what named the slot; the failure is logged as
WINDOW_FAULT, the stray sighting as STRAY_POST unless a sweep made it. Under HOLD a slot not POSTED is not acted on. -/
def Obligations.AReadThatTakesNothingConsumesItsNotice : Prop :=
  (∀ s : State,
     let swept : Option Sweep := some (match s.ink.sweep with
       | none => { position := 0, again := false }
       | some w => { w with again := true })
     (∀ (r : Run) (rs : List Run),
       let left := if r.done + 1 < r.count then { r with done := r.done + 1 } :: rs else rs
       (s.ink.hot.runs = r :: rs → consume .hot s = { s with ink :=
         if left = [] ∧ s.ink.hot.overflow = true then { s.ink with hot := { runs := [], overflow := false }, sweep := swept }
         else { s.ink with hot := { s.ink.hot with runs := left } } }) ∧
       (s.ink.normal.runs = r :: rs → consume .normal s = { s with ink :=
         if left = [] ∧ s.ink.normal.overflow = true then { s.ink with normal := { runs := [], overflow := false }, sweep := swept }
         else { s.ink with normal := { s.ink.normal with runs := left } } })) ∧
     (∀ w : Sweep, s.ink.sweep = some w →
       consume .sweep s = { s with ink := { s.ink with sweep :=
         (if w.position + 1 < slotCount s then some { w with position := w.position + 1 }
          else if w.again then some { position := 0, again := false } else none) } })) ∧
  (∀ (rd : SlotRead) (s : State), Quiet s → s.ink.read = some rd →
     let s1 : State := { s with ink := { s.ink with read := none } }
     exec (.slotReadDone .error) s =
       .next (finish s (consume rd.origin (logError .windowFault (2 * 2 ^ 28 + slotOffset s rd.slot % 2 ^ 28) s1))) ∧
     ∀ bs : List Byte, (parseSlot bs).state ≠ 1 →
       (s.win.hold = true → exec (.slotReadDone (.data bs)) s = .next (finish s s1)) ∧
       (s.win.hold = false → liveAt s rd.slot = none →
         exec (.slotReadDone (.data bs)) s = .next (finish s (match rd.origin with
           | .sweep => consume .sweep s1
           | .hot => logError .strayPost (rd.slot % 4096 + 2 ^ 15 + (parseSlot bs).state % 256 * 2 ^ 16) (consume .hot s1)
           | .normal => logError .strayPost (rd.slot % 4096 + (parseSlot bs).state % 256 * 2 ^ 16) (consume .normal s1)))))

/-- SLOT_READ_DONE of a slot read POSTED that holds no live order takes the slot, also under HOLD: a set cancel byte ends the
order CANCELLED, a MOVE with only its tag recorded (log 23); an unknown kind code is refused BAD_OPERAND; else the order goes
to its owner exactly as its own row gives it there. An order's row for a slot that cannot be taken has no effect: the model's
choice (log 3). -/
def Obligations.APostedSlotIsTaken : Prop :=
  let given (slot : Nat) (tag : BitVec 32) (op : SlotOp) (s : State) : State :=
    routeOrder { slot := slot, tag := tag, seq := s.ink.seq, time := s.clock } op { s with ink := { s.ink with seq := s.ink.seq + 1 } }
  (∀ (rd : SlotRead) (bs : List Byte) (s : State), Quiet s → s.ink.read = some rd → liveAt s rd.slot = none →
    (parseSlot bs).state = 1 →
    let c := parseSlot bs
    let s1 : State := consume rd.origin { s with ink := { s.ink with read := none } }
    (c.cancel ≠ 0 → (∀ m, c.op ≠ .move m) →
      exec (.slotReadDone (.data bs)) s = .next (finish s (endsDirective s1 rd.slot c.tag .cancelled none 0 0 s1))) ∧
    (c.cancel ≠ 0 → (∃ m, c.op = .move m) →
      let bare : MoveOps := { cls := 0, srcKind := 0, dstKind := 0, idLength := 0, srcValue := 0, dstValue := 0, carrier := [] }
      let due := moveDone (refusedRecord s1 c.tag bare (.buffer 0)) .cancelled none 0 .source
      exec (.slotReadDone (.data bs)) s = .next (finish s { s1 with
        ink := { s1.ink with seq := s1.ink.seq + 1 }, win := { s1.win with slotDue := tset {} s1.win.slotDue rd.slot due } })) ∧
    (c.cancel = 0 → exec (.slotReadDone (.data bs)) s = .next (settle s (given rd.slot c.tag c.op s1))) ∧
    (c.cancel = 0 → (∃ n, c.op = .unknown n) →
      exec (.slotReadDone (.data bs)) s = .next (finish s (refuses s1 rd.slot c.tag .badOperand)))) ∧
  ∀ (slot : Nat) (tag : BitVec 32) (a b c d : Nat) (m : MoveOps) (s : State), Quiet s →
    ∀ row ∈ [(Instr.move slot tag m, SlotOp.move m), (.mapOpen slot tag, .mapDir .opening),
        (.mapLoad slot tag a b c d, .mapDir (.load a b c d)), (.mapCommit slot tag, .mapDir .commit),
        (.routePatch slot tag a b, .mapDir (.patch a b)), (.fleetOpen slot tag, .fleetOpen),
        (.admitVehicle slot tag a b c, .admitVehicle a b c), (.retire slot tag a, .retire a), (.locate slot tag a b, .locate a b),
        (.release slot tag a, .release a), (.jog slot tag a b, .jog a b), (.poolPolicy slot tag a b c, .poolPolicy a b c),
        (.zoneClose slot tag a, .zoneClose a), (.zoneOpen slot tag a, .zoneOpen a), (.stationState slot tag a b, .stationState a b)],
      (takeable s slot = true → exec row.1 s = .next (settle s (given slot tag row.2 s))) ∧
      (takeable s slot = false → exec row.1 s = .next (finish s s))

/-- SLOT_READ_DONE of the slot of a live order is a cancel check. With the cancel byte clear nothing is cancelled. With it
set, a MOVE acts by its state: PENDING or CHAINED, it ends CANCELLED at its source; ASSIGNED, it does too, and its vehicle
becomes IDLE, the parking rule to be applied; PICKING, the cancel is deferred; CARRYING or PLACING, it is too late. A map
directive that waits in the queue leaves it and ends CANCELLED; the one at the head, and every other directive, runs on. -/
def Obligations.ACancelCheckActsByTheOrderState : Prop :=
  ∀ (rd : SlotRead) (bs : List Byte) (s : State), Quiet s → s.win.hold = false → s.ink.read = some rd →
    ((parseSlot bs).state = 1 ∨ (parseSlot bs).state = 2) →
    let s1 : State := consume rd.origin { s with ink := { s.ink with read := none } }
    let put (o' : OrderRec) : State := { s1 with orders := tset none s1.orders rd.slot (some (.move o')) }
    ((parseSlot bs).cancel = 0 → liveAt s rd.slot ≠ none → exec (.slotReadDone (.data bs)) s = .next (finish s s1)) ∧
    (∀ o, (parseSlot bs).cancel ≠ 0 → orderAt s rd.slot = some o →
      (o.state = .picking → exec (.slotReadDone (.data bs)) s = .next (finish s (put { o with cancelDeferred := true }))) ∧
      (o.state = .carrying ∨ o.state = .placing →
        exec (.slotReadDone (.data bs)) s = .next (finish s (put { o with cancelTooLate := true }))) ∧
      (o.state = .pending ∨ o.state = .chained →
        exec (.slotReadDone (.data bs)) s = .next (finish s (finishOrder rd.slot .cancelled none .source s1))) ∧
      (o.state = .assigned → ∀ v, o.vehicle = some v →
        let t := finishOrder rd.slot .cancelled none .source s1
        exec (.slotReadDone (.data bs)) s = .next (settle s
          { putVeh v { veh t v with state := .idle, target := none, circulating := false } t with agenda := [.parking v, .revise v] }))) ∧
    (∀ d, (parseSlot bs).cancel ≠ 0 → liveAt s rd.slot = some (.directive d) →
      (∀ (h : MapDir) (q : List MapDir), s.map.queue = h :: q → h.slot ≠ rd.slot → (∃ e ∈ q, e.slot = rd.slot) →
        exec (.slotReadDone (.data bs)) s = .next (finish s
          (endDirective rd.slot .cancelled none 0 0
            { s1 with map := { s.map with queue := h :: q.filter (fun e => !decide (e.slot = rd.slot)) } }))) ∧
      (((∀ e ∈ s.map.queue, e.slot ≠ rd.slot) ∨ ∃ h q, s.map.queue = h :: q ∧ h.slot = rd.slot) →
        exec (.slotReadDone (.data bs)) s = .next (finish s s1)))

/-! ### MOVE intake -/

/-- A MOVE is refused by the first of the nine conditions that holds, in their order, with its detail; the refusal makes
no record, and the slot is owed one write: progress, result, DONE. What the result shows of the destination is the
model's reading (log 23). -/
def Obligations.AMoveIsRefusedByTheFirstCondition : Prop :=
  ∀ (slot : Nat) (tag : BitVec 32) (m : MoveOps) (s : State), Quiet s → takeable s slot = true →
    let answers (b : Dest) (reason : Reason) (detail : Nat) : Prop :=
      exec (.move slot tag m) s = .next (finish s (refusesMove s slot tag m b reason detail))
    let source (st : Nat) : Prop := m.srcKind = 1 ∧ decodeCode s m.srcValue = some st
    let station (st : Nat) : Prop := m.dstKind = 1 ∧ decodeCode s m.dstValue = some st
    if committed s = false then answers (.buffer 0) .mapNotCommitted 0
    else if (m.srcKind ≠ 1 ∧ m.srcKind ≠ 3) ∨ (m.dstKind ≠ 1 ∧ m.dstKind ≠ 2) ∨ 32 < m.idLength ∨
        (m.srcKind = 3 ∧ 255 < m.srcValue) ∨ (m.dstKind = 2 ∧ (63 < m.dstValue ∨ bayAt s m.dstValue = none)) then
      answers (.buffer 0) .badOperand 0
    else if m.srcKind = 1 ∧ decodeCode s m.srcValue = none then answers (.buffer 0) .unknownLocation 1
    else if m.dstKind = 1 ∧ decodeCode s m.dstValue = none then answers (.buffer 0) .unknownLocation 2
    else
      ∀ (a : Source) (b : Dest),
        (a = .vehicle m.srcValue ∧ m.srcKind = 3 ∨ ∃ st, a = .station st ∧ source st) →
        (b = .buffer m.dstValue ∧ m.dstKind = 2 ∨ ∃ st, b = .station st ∧ station st) →
        let closedAt : Option Nat → Bool := fun st => st.any (stationClosed s)
        let from_ : Option Nat := match a with
          | .station st => some st
          | .vehicle _ => none
        let to_ : Option Nat := match b with
          | .station st => some st
          | .buffer _ => none
        let rackless : Bool := match b with
          | .station _ => false
          | .buffer i => !(bayAt s i).any hasRack
        if closedAt from_ = true then answers b .stationClosed 1
        else if closedAt to_ = true then answers b .stationClosed 2
        else if from_.isSome ∧ from_ = to_ then answers b .sameLocation 0
        else if rackless = true then answers b .noBuffer 0
        else match sourceClaim s a, namedClaim s b with
          | some k, _ => answers b .sourceBusy k
          | none, some k => answers b .destBusy k
          | none, none => ∀ v, a = .vehicle v → (veh s v).state ≠ .holding → answers b .vehicleState 0

/-- A MOVE from a STATION that no condition refuses becomes live: PENDING, with its clamped class, its source, its
destination, its carrier ID, its tag, the intake sequence value and the taken time; its slot is owed TAKEN. A MOVE from
a HOLDING vehicle that no condition refuses: to a STATION, or to a bay with a choosable shelf, which is then reserved
and chosen, it is live and CARRYING, and the vehicle goes TO_DEST towards that station; to a bay with none it ends
FAILED, DEST_OCCUPIED, and the vehicle stays as it is. -/
def Obligations.AnAcceptedMoveIsLive : Prop :=
  (∀ (slot : Nat) (tag : BitVec 32) (m : MoveOps) (a : Nat) (b : Dest) (s : State), Quiet s → takeable s slot = true →
     committed s = true → badMove s m = false → m.srcKind = 1 → decodeCode s m.srcValue = some a → moveDest s m = some b →
     placeRefusal s (.station a) b = none →
     exec (.move slot tag m) s = .next (finish s { s with
       ink := { s.ink with seq := s.ink.seq + 1 },
       win := { s.win with slotDue := tset {} s.win.slotDue slot { taken := true, final := none } },
       orders := tset none s.orders slot (some (.move
         { seq := s.ink.seq, cls := min 3 m.cls, source := .station a, dest := b, chosen := none,
           carrier := if m.idLength = 0 then none else some (m.carrier.take m.idLength), readId := none, tag := tag,
           state := .pending, vehicle := none, classClamped := decide (3 < m.cls), cancelTooLate := false, shelfChosen := false,
           cancelDeferred := false, taken := some s.clock, assigned := none, loaded := none, ended := none, age := 0,
           stale := false })) })) ∧
  (∀ (slot : Nat) (tag : BitVec 32) (m : MoveOps) (b : Dest) (s : State), Quiet s → takeable s slot = true →
     committed s = true → badMove s m = false → m.srcKind = 3 → moveDest s m = some b →
     placeRefusal s (.vehicle m.srcValue) b = none →
     let v := m.srcValue
     let o : OrderRec :=
       { seq := s.ink.seq, cls := min 3 m.cls, source := .vehicle v, dest := b,
         carrier := if m.idLength = 0 then none else some (m.carrier.take m.idLength), tag := tag, state := .carrying,
         vehicle := some v, classClamped := decide (3 < m.cls), taken := some s.clock, assigned := some s.clock,
         loaded := some s.clock }
     let taken (d : SlotDue) : State := { s with
       ink := { s.ink with seq := s.ink.seq + 1 }, win := { s.win with slotDue := tset {} s.win.slotDue slot d } }
     let live : State := { taken { taken := true } with orders := tset none s.orders slot (some (.move o)) }
     let goes (g : Nat) (t : State) : State :=
       { putVeh v { veh s v with state := .toDest, current := some slot, target := some g } t with
         agenda := (if standingAt (veh s v) = some g then [.arrival v] else []) ++ [.revise v, .attempt v] }
     (∀ st g, b = .station st → stationNode s st = some g →
       exec (.move slot tag m) s = .next (settle s (goes g live))) ∧
     (∀ i, b = .buffer i →
       (∀ st g, dropChoice live i = some st → stationNode s st = some g →
         exec (.move slot tag m) s = .next (settle s (goes g (reserveDrop slot st live)))) ∧
       (dropChoice live i = none →
         exec (.move slot tag m) s = .next (finish s (taken
           (moveDone { o with ended := some s.clock } .failed (some .destOccupied) 0 .vehicle))))))

/-! ### Fleet directives -/

/-- FLEET_OPEN: refused while the map is not COMMITTED; in OPERATING without effect; in ASSEMBLY the phase becomes
OPERATING and every vehicle's extension is taken up. RELEASE: the four refusals in their order; else QUARANTINED is
cleared, which is a fleet availability change. POOL_POLICY: the two refusals; else the bay's live policy takes the two
marks and the reserve, clamped to 15 and reported RESERVE_CLAMPED where it was above, and the fleet's availability
changes. The loaded policy stays. STATION_STATE: the two refusals; else the station's live state is the one given; where
it differs, the fleet's availability changes. -/
def Obligations.DirectivesThatEndAtOnce : Prop :=
  (∀ (slot : Nat) (tag : BitVec 32) (s : State), Quiet s → takeable s slot = true →
     exec (.fleetOpen slot tag) s = .next (
       if committed s = false then finish s (refuses s slot tag .mapNotCommitted)
       else if s.flt.phase = .operating then finish s (completes s slot tag s)
       else settle s (completes s slot tag { s with
         flt := { s.flt with phase := .operating }, agenda := (fleet s).map (fun p => .attempt p.1) }))) ∧
  (∀ (slot : Nat) (tag : BitVec 32) (v : Nat) (s : State), Quiet s → takeable s slot = true →
     let r := veh s v
     exec (.release slot tag v) s = .next (finish s (
       if committed s = false then refuses s slot tag .mapNotCommitted
       else if 255 < v then refuses s slot tag .badOperand
       else if r.quarantined = false then refuses s slot tag .notQuarantined
       else if r.state = .faulted ∨ r.retiring = true then refuses s slot tag .vehicleState
       else completes s slot tag (availability { s with
         flt := { s.flt with vehicles := tset {} s.flt.vehicles v { r with quarantined := false } } })))) ∧
  (∀ (slot : Nat) (tag : BitVec 32) (bay marks reserve : Nat) (s : State), Quiet s → takeable s slot = true →
     exec (.poolPolicy slot tag bay marks reserve) s = .next (finish s (
       if committed s = false then refuses s slot tag .mapNotCommitted
       else if 63 < bay ∨ bayAt s bay = none then refuses s slot tag .badOperand
       else
         let p : Policy := { lend := marks.testBit 0, borrow := marks.testBit 1, reserve := min 15 reserve }
         endsDirective s slot tag .completed none 0 (if 15 < reserve then 32 else 0)
           (availability { s with map := { s.map with policy := tset {} s.map.policy bay p } })))) ∧
  (∀ (slot : Nat) (tag : BitVec 32) (st state : Nat) (s : State), Quiet s → takeable s slot = true →
     exec (.stationState slot tag st state) s = .next (finish s (
       if committed s = false then refuses s slot tag .mapNotCommitted
       else if 4095 < st ∨ stationAt s st = none ∨ 1 < state then refuses s slot tag .badOperand
       else if stationClosed s st = decide (state = 1) then completes s slot tag s
       else completes s slot tag (availability { s with
         map := { s.map with liveClosed := tset false s.map.liveClosed st (decide (state = 1)) } }))))

/-- ADMIT: the five refusals in their order; else the vehicle holds the zone of its arrival segment (a CLOSED zone
becomes CLOSING), stands IDLE at the segment's to node with the home pool given, its silence timer runs, a STAND is
queued, the admission is a fleet availability change, and the parking rule applies. -/
def Obligations.AdmitPlacesTheVehicle : Prop :=
  ∀ (slot : Nat) (tag : BitVec 32) (v pool seg : Nat) (s : State), Quiet s → takeable s slot = true →
    exec (.admitVehicle slot tag v pool seg) s = .next (
      if committed s = false then finish s (refuses s slot tag .mapNotCommitted)
      else match segAt s seg with
        | none => finish s (refuses s slot tag .badOperand)
        | some e =>
          if 255 < v ∨ bayAt s pool = none then finish s (refuses s slot tag .badOperand)
          else if (veh s v).state ≠ .offline then finish s (refuses s slot tag .vehicleState)
          else if (zoneRec s e.zone).holder ≠ none then finish s (refuses s slot tag .collisionRisk)
          else if (zoneBay s e.zone).any (fun b => decide (capacityOf s b ≤ occupancy s b)) then
            finish s (refuses s slot tag .bayFull)
          else
            let z := zoneRec s e.zone
            let z1 : ZoneRec := { z with holder := some v, live := if z.live = .closed then .closing else z.live }
            let at_ : Position := { standing := some e.toNode, segment := seg, entry := 0, measurable := false }
            let r1 : Vehicle := { state := .idle, pool := pool, pos := some at_ }
            let l1 : Link := { linkAt s v with silence := some s.clock }
            let placed : State := { s with
              zones := tset {} s.zones e.zone z1, flt := { s.flt with vehicles := tset {} s.flt.vehicles v r1 },
              tsl := { s.tsl with
                links := tset {} s.tsl.links v l1,
                grantQueue := if s.tsl.linkHold then s.tsl.grantQueue else enqueue v false s.tsl.grantQueue } }
            settle s (completes s slot tag { availability placed with agenda := [.parking v] }))

/-- RETIRE: the refusals; of an IDLE or PARKING record with an empty path, or of a LOST or FAULTED record, the record
takes its empty form with its link side and its zones are released; of an IDLE or PARKING record still moving, it loses
its park node, target and circulating mark, hands on no measurement, and is retiring and QUARANTINED. A released park node is offered. -/
def Obligations.RetireEndsTheRecord : Prop :=
  ∀ (slot : Nat) (tag : BitVec 32) (v : Nat) (s : State), Quiet s → takeable s slot = true →
    let r := veh s v
    let offers : List Task := match r.park with
      | some n => [.offer n]
      | none => []
    let emptied : State := voidHoist v { putVeh v {} s with tsl := { s.tsl with
      grantQueue := s.tsl.grantQueue.filter (fun p => !decide (p.1 = v)),
      hoistQueue := s.tsl.hoistQueue.filter (fun p => !decide (p.1 = v)), links := tset {} s.tsl.links v {} } }
    exec (.retire slot tag v) s = .next (
      if committed s = false then finish s (refuses s slot tag .mapNotCommitted)
      else if 255 < v then finish s (refuses s slot tag .badOperand)
      else if (r.state = .idle ∨ r.state = .parking) ∧ r.uncertain = false then
        if r.path = [] then
          settle s (completes s slot tag { emptied with
            agenda := .revise v :: (offers ++ (positionZone s r).toList.map (fun z => .release v z)) })
        else
          settle s (completes s slot tag { putVeh v { r with
            park := none, target := none, circulating := false, retiring := true, quarantined := true,
            pos := r.pos.map (fun p => { p with measurable := false }) } s with
            agenda := .revise v :: offers })
      else if r.state = .lost ∨ r.state = .faulted then
        settle s (completes s slot tag { emptied with agenda := .revise v :: (zonesHeld s v).map (fun z => .release v z) })
      else finish s (refuses s slot tag .vehicleState))

/-- LOCATE: the five refusals in their order; else every other zone is released, the vehicle holds the zone of the
arrival segment and stands at its to node with an empty path, without UNCERTAIN; a LOST record becomes FAULTED,
QUARANTINED, with code SILENCE, its timer runs and a STAND is queued; an IDLE record falls under the parking rule;
arrival and extension follow. -/
def Obligations.LocatePlacesTheRecord : Prop :=
  ∀ (slot : Nat) (tag : BitVec 32) (v seg : Nat) (s : State), Quiet s → takeable s slot = true →
    let r := veh s v
    exec (.locate slot tag v seg) s = .next (
      if committed s = false then finish s (refuses s slot tag .mapNotCommitted)
      else match segAt s seg with
        | none => finish s (refuses s slot tag .badOperand)
        | some e =>
          if 255 < v then finish s (refuses s slot tag .badOperand)
          else if r.state ≠ .lost ∧ r.uncertain = false then finish s (refuses s slot tag .vehicleState)
          else if (zoneRec s e.zone).holder ≠ none ∧ (zoneRec s e.zone).holder ≠ some v then
            finish s (refuses s slot tag .collisionRisk)
          else if (zoneBay s e.zone).any (fun b => !holdsBay s v b && decide (capacityOf s b ≤ occupancy s b)) then
            finish s (refuses s slot tag .bayFull)
          else
            let at_ : Option Position := some { standing := some e.toNode, segment := seg, entry := 0, measurable := false }
            let r1 : Vehicle :=
              if r.state = .lost then
                { r with pos := at_, path := [], uncertain := false, state := .faulted, quarantined := true, fault := .silence }
              else { r with pos := at_, path := [], uncertain := false }
            let z := zoneRec s e.zone
            let z1 : ZoneRec := { z with holder := some v, live := if z.live = .closed then .closing else z.live }
            let held : State := putVeh v r1 { s with zones := tset {} s.zones e.zone z1 }
            let timed : State := if r.state = .lost then queueStand v (restartSilence v held) else held
            settle s (completes s slot tag { timed with
              agenda := ((zonesHeld s v).filter (fun z => !decide (z = e.zone))).map (fun z => .release v z) ++
                (if r.state = .idle then [.parking v] else []) ++ [.arrival v, .attempt v] }))

/-- JOG: the five refusals in their order; else the record becomes MANUAL towards the node, its park node is released
and offered, and the JOG stays live. That the node is offered after the vehicle's own tasks is the model's choice (log 5). -/
def Obligations.JogSendsTheVehicle : Prop :=
  ∀ (slot : Nat) (tag : BitVec 32) (v node : Nat) (s : State), Quiet s → takeable s slot = true →
    let r := veh s v
    exec (.jog slot tag v node) s = .next (
      if s.win.manualEnable = false then finish s (refuses s slot tag .manualDisabled)
      else if committed s = false then finish s (refuses s slot tag .mapNotCommitted)
      else if 255 < v ∨ homeBay s node = none then finish s (refuses s slot tag .badOperand)
      else if (r.state ≠ .idle ∧ r.state ≠ .holding) ∨ r.uncertain = true ∨ r.retiring = true then
        finish s (refuses s slot tag .vehicleState)
      else if (limitOf s r).bind (fun m => walk s m node) = none then finish s (refuses s slot tag .noRoute)
      else settle s { putVeh v { r with
          state := .manual, target := some node, park := none, circulating := false,
          jog := some { slot := slot, node := node, holding := decide (r.state = .holding) } }
          (keepsDirective s slot tag 11 s) with
        agenda := (if standingAt r = some node then [.arrival v] else []) ++ [.revise v, .attempt v] ++ (match r.park with
          | some n => [.offer n]
          | none => []) })

/-! ### Zone directives -/

/-- ZONE_CLOSE: the three refusals; a free OPEN zone becomes CLOSED and a CLOSED one stays so, both ending the order; a
held OPEN zone becomes CLOSING with this order as its closing order, which stays live; so does a CLOSING zone without
one. ZONE_OPEN: the two refusals; a CLOSED zone becomes OPEN and its waiters are served; a CLOSING one becomes OPEN with
its holder kept, and the order that waits on it ends CANCELLED; an OPEN one stays. -/
def Obligations.ZoneDirectivesCloseAndOpen : Prop :=
  (∀ (slot : Nat) (tag : BitVec 32) (z : Nat) (s : State), Quiet s → takeable s slot = true →
     let r := zoneRec s z
     exec (.zoneClose slot tag z) s = .next (finish s (
       if committed s = false then refuses s slot tag .mapNotCommitted
       else if 1023 < z ∨ zoneAt s z = none then refuses s slot tag .badOperand
       else if r.live = .closed then completes s slot tag s
       else if r.live = .opened ∧ r.holder = none then
         completes s slot tag { s with zones := tset {} s.zones z { r with live := .closed } }
       else match r.live, r.closingOrder with
         | .closing, some k => endsDirective s slot tag .refused (some .closePending) k 0 s
         | _, _ => keepsDirective s slot tag 13
             { s with zones := tset {} s.zones z { r with live := .closing, closingOrder := some slot } }))) ∧
  (∀ (slot : Nat) (tag : BitVec 32) (z : Nat) (s : State), Quiet s → takeable s slot = true →
     let r := zoneRec s z
     exec (.zoneOpen slot tag z) s = .next (
       if committed s = false then finish s (refuses s slot tag .mapNotCommitted)
       else if 1023 < z ∨ zoneAt s z = none then finish s (refuses s slot tag .badOperand)
       else match r.live, r.closingOrder with
         | .opened, _ => finish s (completes s slot tag s)
         | .closed, _ =>
           settle s (completes s slot tag { s with zones := tset {} s.zones z { r with live := .opened }, agenda := [.serve z false] })
         | .closing, none =>
           finish s (completes s slot tag { s with zones := tset {} s.zones z { r with live := .opened, closingOrder := none } })
         | .closing, some k =>
           finish s (completes s slot tag (endDirective k .cancelled none 0 0
             { s with zones := tset {} s.zones z { r with live := .opened, closingOrder := none } }))))

/-! ### The map directives -/

/-- MAP_OPEN, MAP_LOAD, MAP_COMMIT and ROUTE_PATCH join the end of the map directive queue with their operands and stay
live, the first of an empty queue running at once; with 8 in the queue each is refused MAP_BUSY. What the four map
directives do when they find the queue empty, the taking and the run being two acts (log 10). MAP_OPEN is refused FLEET_ACTIVE while a vehicle is not OFFLINE and
ORDERS_LIVE while a MOVE is live; else the map is OPEN, and a COMMITTED one loses its live station states and policies,
its times, the zones, the arbiters, the shelves and racks, the aging timer and MAP_KEPT. MAP_LOAD is refused MAP_STATE
or BAD_OPERAND, or begins with the staging read of its first entry; MAP_COMMIT is refused MAP_STATE, or validates; ROUTE_PATCH
is refused MAP_STATE or BAD_OPERAND, or begins with the staging read of its first entry. A first read that lies outside the
window is logged and ends the directive LOAD_FAULT; that it is made at once is the model's choice (log 6). -/
def Obligations.MapDirectivesQueueAndRun : Prop :=
  (∀ (slot : Nat) (tag : BitVec 32) (sec first count off : Nat) (s : State), Quiet s → takeable s slot = true →
     let answers (c : Instr) (kind : Nat) (op : MapOp) : Prop :=
       exec c s = .next (
         if 8 ≤ s.map.queue.length then finish s (refuses s slot tag .mapBusy)
         else settle s { keepsDirective s slot tag kind s with
           map := { s.map with queue := s.map.queue ++ [{ slot := slot, op := op }] },
           agenda := if s.map.queue = [] then [.mapHead] else [] })
     answers (.mapOpen slot tag) 2 .opening ∧ answers (.mapLoad slot tag sec first count off) 3 (.load sec first count off) ∧
     answers (.mapCommit slot tag) 4 .commit ∧ answers (.routePatch slot tag count off) 5 (.patch count off)) ∧
  (∀ (slot : Nat) (tag : BitVec 32) (sec first count off : Nat) (s : State), Quiet s → takeable s slot = true →
     s.map.queue = [] → s.map.run = .idle →
     let gone (b : State) : State := { b with orders := tset none s.orders slot none }
     let refused (r : Reason) : State := gone (refuses s slot tag r)
     let faults (sec i : Nat) (b : State) : State :=
       gone (endsDirective s slot tag .refused (some .loadFault) (sec * 2 ^ 24 + i % 2 ^ 24) 0 b)
     let logged : State := logError .windowFault (1 * 2 ^ 28 + stagingOffset s off % 2 ^ 28) s
     let acts (kind : Nat) (op : MapOp) (b : State) : State :=
       twoActs s { keepsDirective s slot tag kind s with map := { s.map with queue := [{ slot := slot, op := op }] } } b
     let runs (kind : Nat) (op : MapOp) (run : MapRun) : State := { keepsDirective s slot tag kind s with
       map := { s.map with queue := [{ slot := slot, op := op }], run := run } }
     exec (.mapOpen slot tag) s = .next (acts 2 .opening (
       if ∃ p ∈ s.flt.vehicles, p.2.state ≠ .offline then refused .fleetActive
       else if moves s ≠ [] then refused .ordersLive
       else match s.map.phase with
         | .vacant => gone (completes s slot tag { s with map := { s.map with phase := .opened } })
         | .opened => gone (completes s slot tag s)
         | .committed => gone (completes s slot tag { s with
             map := { s.map with phase := .opened, liveClosed := [], policy := [] }, times := [], zones := [], arbiters := [],
             buf := { shelves := [], racks := [] }, dsp := { s.dsp with agingStart := none },
             win := { s.win with mapKept := false } }))) ∧
     exec (.mapLoad slot tag sec first count off) s = .next (acts 3 (.load sec first count off) (
       if s.map.phase ≠ .opened then refused .mapState
       else match sectionCapacity sec with
         | none => refused .badOperand
         | some cap =>
           if count = 0 ∨ cap < first + count ∨ off % 8 ≠ 0 ∨ stagingSize s < off + count * entrySize sec then refused .badOperand
           else if accessOk s (stagingOffset s off) (entrySize sec) = false then faults sec first (emptyRange sec first count logged)
           else runs 3 (.load sec first count off) (.loading first))) ∧
     exec (.mapCommit slot tag) s = .next (acts 4 .commit (
       if s.map.phase ≠ .opened then refused .mapState else runs 4 .commit .validating)) ∧
     exec (.routePatch slot tag count off) s = .next (acts 5 (.patch count off) (
       if s.map.phase ≠ .committed then refused .mapState
       else if count = 0 ∨ 256 < count ∨ off % 8 ≠ 0 ∨ stagingSize s < off + count * 16 then refused .badOperand
       else if accessOk s (stagingOffset s off) 16 = false then faults 8 0 logged
       else runs 5 (.patch count off) (.reading []))))

/-- MAP_LOAD_ENTRY_READ_DONE: the entry read is written as staged, and the load goes on with the staging read of the next,
tested against the window registers as they then stand, or ends COMPLETED after its last entry; a read that fails, or one
whose place lies outside the window, is logged, ends the load REFUSED LOAD_FAULT with the section and the entry whose read it
was, and empties the whole range. That the next read is made at once is the model's choice (log 6). -/
def Obligations.ALoadedEntryIsWrittenAsStaged : Prop :=
  ∀ (r : ReadResult) (slot i sec first count off : Nat) (rest : List MapDir) (s : State), Quiet s →
    s.map.run = .loading i → s.map.queue = { slot := slot, op := .load sec first count off } :: rest →
    let place (j : Nat) : Nat := stagingOffset s (off + (j - first) * entrySize sec)
    let ends (code : ResultCode) (reason : Option Reason) (detail : Nat) (t : State) : State :=
      push [.mapHead] (endDirective slot code reason detail 0 { t with map := { t.map with queue := rest, run := .idle } })
    let faults (cause j : Nat) (t : State) : State :=
      ends .refused (some .loadFault) (sec * 2 ^ 24 + j % 2 ^ 24)
        (emptyRange sec first count (logError .windowFault (cause * 2 ^ 28 + place j % 2 ^ 28) t))
    exec (.mapLoadEntryReadDone r) s = .next (match r with
      | .error => settle s (faults 2 i s)
      | .data bs =>
        let t := writeEntry sec i bs s
        if first + count ≤ i + 1 then settle s (ends .completed none 0 t)
        else if accessOk s (place (i + 1)) (entrySize sec) = false then settle s (faults 1 (i + 1) t)
        else finish s { t with map := { t.map with run := .loading (i + 1) } })

/-- MAP_COMMIT_VALIDATION_DONE: a check that fails ends the commit REFUSED MAP_INCONSISTENT with the entry it found and
leaves the map OPEN; when all pass the map is COMMITTED, with its parameters and speeds clamped to their ranges, its live states and
policies and its times set anew, every zone OPEN and free, every arbiter parked, every shelf UNKNOWN, the racks' and the
aging timer started, the fleet in ASSEMBLY, and no GRANT queued. An arbiter's convoy start 0 is the model's choice (log 47). -/
def Obligations.ACommitTakesEffectWhole : Prop :=
  ∀ (d : MapDir) (rest : List MapDir) (s : State), Quiet s → s.map.run = .validating → s.map.queue = d :: rest →
    let ends (code : ResultCode) (reason : Option Reason) (detail flags : Nat) (t : State) : State :=
      push [.mapHead] (endDirective d.slot code reason detail flags { t with map := { t.map with queue := rest, run := .idle } })
    let segs := s.map.segments.map (fun p => (p.1, p.2.map (fun e => { e with speed := max 200 (min e.speed 6000) })))
    let g := s.map.globals
    let clamped : Globals := { g with
      lookahead := max 1 (min g.lookahead 6), agingPeriod := max 1 (min g.agingPeriod 255),
      stallLimit := max 5 (min g.stallLimit 255), hoistWaitLimit := max 10 (min g.hoistWaitLimit 255),
      busyRetry := max 500 (min g.busyRetry 10000), replyWindow := max 100 (min g.replyWindow 2000),
      silenceLimit := max 1000 (min g.silenceLimit 10000), rackSilenceLimit := max 1000 (min g.rackSilenceLimit 30000) }
    exec .mapCommitValidationDone s = .next (settle s (match validate s with
      | some f => ends .refused (some .mapInconsistent) (f.1 * 2 ^ 24 + f.2 % 2 ^ 24) 0 s
      | none => ends .completed none 0
        ((if clamped = g then 0 else 8) + (if segs = s.map.segments then 0 else 16))
        { s with
          map := { s.map with
            phase := .committed, globals := clamped, segments := segs,
            liveClosed := s.map.stations.filterMap (fun p => p.2.bind (fun e => if e.initial = 1 then some (p.1, true) else none)),
            policy := s.map.bays.filterMap (fun p => p.2.bind (fun e => if e.policy = {} then none else some (p.1, e.policy))) },
          times := segs.map (fun p => (p.1, p.2.map (fun e =>
            let t0 := min 65535 ((e.length * 1000 + e.speed - 1) / e.speed)
            { base := t0, learned := t0, floor := max 1 (t0 / 2) }))),
          zones := [],
          arbiters := s.map.merges.map (fun p => (p.1, p.2.map (fun e =>
            let park : Branch := if e.parkBranch = 1 then .b else .a
            { favour := park, convoy := .inactive, start := 0, park := park, limit := e.convoyLimit }))),
          buf := { shelves := [], racks := freshRacks s.clock s.map.bays },
          flt := { s.flt with phase := .assembly },
          tsl := { s.tsl with grantQueue := s.tsl.grantQueue.filter (fun p => !p.2) },
          dsp := { s.dsp with agingStart := some s.clock } }))

/-- A map that passes the checks. Stations: each code decodes to its own station, whose node lies on the loop of its bay,
which is defined; kind and initial state are named values; a SHELF lies at its row and column of its bay's rack. Bays: the
spine is defined; capacity, rack and loop length lie in their ranges; the capacity leaves one of the bay's zones; the park
nodes are defined; the loop-next segments lead from the entry node, at position 0, once through every node of the bay and back,
their lengths adding up to the loop length; every place of the rack is a SHELF of the bay. Nodes of a loop: the loop-next
segment starts at the node and leads to a node of the same bay whose position is this one's and the segment's length, modulo
the loop's. Segments: both nodes and the zone are defined, the length is at least 1. Zones: each has a bay and a segment; a
PLAIN one has one predecessor zone; a MERGE one names a merge of its own whose two branches are its two predecessors, and each
merge is named by one zone. Decode entries: no base bit outside the mask, every station of the range in the entry's bay. Routes
that are not local: the next segment starts at the node and leads to the join node on the loop, at its length's distance, or
to a node whose own entry has the rest of the distance and the same join node. -/
def Obligations.AValidMapDecodesEveryStation : Prop :=
  ∀ s : State, validate s = none →
    (∀ st e, stationAt s st = some e → decodeCode s e.code = some st ∧ homeBay s e.node = some e.bay ∧ (bayAt s e.bay).isSome ∧
      1 ≤ e.kind ∧ e.kind ≤ 3 ∧ e.initial ≤ 1 ∧
      (e.kind = 3 → ∃ b, bayAt s e.bay = some b ∧ e.row < b.rows ∧ e.col < b.cols ∧
        st = b.firstShelf + e.row * b.cols + e.col)) ∧
    (bayAt s 0).isSome = true ∧
    (∀ b e, bayAt s b = some e → e.capacity + 1 ≤ bayZones s b ∧ 1 ≤ e.capacity ∧ e.capacity ≤ 64 ∧
      e.rows ≤ 8 ∧ e.cols ≤ 8 ∧ (e.rows = 0 ↔ e.cols = 0) ∧ 1 ≤ e.loopLength ∧ e.loopLength ≤ 16777215 ∧ e.parkCount ≤ 8 ∧
      (∀ n ∈ e.parkNodes.take e.parkCount, (nodeAt s n).isSome) ∧
      (∀ st ∈ rackShelves e, ∃ x, stationAt s st = some x ∧ x.kind = 3 ∧ x.bay = b) ∧
      homeBay s e.entryNode = some b ∧ (nodeAt s e.entryNode).map (fun x => x.loopPos) = some 0 ∧
      ∃ ns : List Nat, ns.head? = some e.entryNode ∧ ns.Nodup ∧
        (∀ i < ns.length, (loopNext s (ns.getD i 0)).bind (segTo s) = some (ns.getD ((i + 1) % ns.length) 0)) ∧
        (ns.map (fun n => segLength s ((loopNext s n).getD 0))).sum = e.loopLength ∧ ∀ n, homeBay s n = some b → n ∈ ns) ∧
    (∀ n e b, nodeAt s n = some e → homeBay s n = some b → ∃ k x y, segAt s e.loopNext = some k ∧ k.fromNode = n ∧
      nodeAt s k.toNode = some x ∧ homeBay s k.toNode = some b ∧ bayAt s b = some y ∧
      x.loopPos = (e.loopPos + k.length) % y.loopLength ∧ e.loopPos < y.loopLength) ∧
    (∀ k e, segAt s k = some e → (nodeAt s e.fromNode).isSome ∧ (nodeAt s e.toNode).isSome ∧ (zoneAt s e.zone).isSome ∧
      1 ≤ e.length) ∧
    (tableWf none s.map.segments = true → ∀ z e, zoneAt s z = some e →
      let leads (p : Nat) : Prop := p ≠ z ∧ ∃ i j x y, segAt s i = some x ∧ segAt s j = some y ∧ x.zone = p ∧ y.zone = z ∧
        x.toNode = y.fromNode
      (bayAt s e.bay).isSome ∧ (∃ k x, segAt s k = some x ∧ x.zone = z) ∧
        (e.kind = 1 ∧ (∃ p, ∀ q, leads q ↔ q = p) ∨
          e.kind = 2 ∧ ∃ m, mergeAt s e.merge = some m ∧ m.zone = z ∧ m.predA ≠ m.predB ∧
            ∀ q, leads q ↔ q = m.predA ∨ q = m.predB)) ∧
    (tableWf none s.map.zones = true → ∀ m e, mergeAt s m = some e → e.parkBranch ≤ 1 ∧
      ∃ z x, zoneAt s z = some x ∧ x.kind = 2 ∧ x.merge = m ∧
        ∀ w y, zoneAt s w = some y → y.kind = 2 → y.merge = m → w = z) ∧
    (∀ i e, tget none s.map.decodes i = some e → e.base &&& e.mask = e.base ∧ e.first + e.count ≤ 4096 ∧
      (bayAt s e.bay).isSome ∧ ∀ st x, stationAt s st = some x → e.first ≤ st → st < e.first + e.count → x.bay = e.bay) ∧
    (∀ n b e, b < 64 → routeAt s n b = some e → homeBay s n ≠ some b → (bayAt s b).isSome ∧ (nodeAt s e.join).isSome ∧
      ∃ k, segAt s e.next = some k ∧ k.fromNode = n ∧
        (homeBay s k.toNode = some b → e.join = k.toNode ∧ e.distance = k.length) ∧
        (homeBay s k.toNode ≠ some b → ∃ x, routeAt s k.toNode b = some x ∧ e.distance = k.length + x.distance ∧
          e.join = x.join))

/-- ROUTE_PATCH_ENTRY_READ_DONE: the entries are read one by one, each read tested against the window registers as it is made,
which is as the one before it completes (the model's choice, log 6); after the last, an entry out of range or a pair named
twice ends the patch REFUSED BAD_OPERAND with its position, else the patch waits for the evaluation in flight or is
checked; a read that fails or lies outside the window ends it LOAD_FAULT with its position. ROUTE_PATCH_CHECK_DONE: a check that fails refuses the
patch whole; else the entries are written, every stale flag is cleared, and every vehicle's wait is revised and
extension attempted. -/
def Obligations.ARoutePatchIsAppliedWholeOrNotAtAll : Prop :=
  ∀ (r : ReadResult) (buf : List PatchEntry) (slot count off : Nat) (rest : List MapDir) (s : State), Quiet s →
    s.map.queue = { slot := slot, op := .patch count off } :: rest →
    let ends (code : ResultCode) (reason : Option Reason) (detail : Nat) (t : State) : State :=
      push [.mapHead] (endDirective slot code reason detail 0 { t with map := { t.map with queue := rest, run := .idle } })
    let faults (cause i : Nat) : State :=
      ends .refused (some .loadFault) (8 * 2 ^ 24 + i % 2 ^ 24)
        (logError .windowFault (cause * 2 ^ 28 + stagingOffset s (off + i * 16) % 2 ^ 28) s)
    (s.map.run = .reading buf →
      exec (.routePatchEntryReadDone r) s = .next (match r with
          | .error => settle s (faults 2 buf.length)
          | .data bs =>
            let all := buf ++ [parsePatch bs]
            if all.length < count then
              if accessOk s (stagingOffset s (off + all.length * 16)) 16 = false then settle s (faults 1 all.length)
              else finish s { s with map := { s.map with run := .reading all } }
            else match badPatch 0 [] all with
              | some i => settle s (ends .refused (some .badOperand) i s)
              | none => finish s { s with map := { s.map with run := if s.dsp.evaluating then .waiting all else .checking all } })) ∧
    (s.map.run = .checking buf →
      let routes := buf.foldl (fun t e => tset none t (e.node * 64 + e.bay) e.route) s.map.routes
      let t : State := { s with map := { s.map with routes := routes } }
      exec .routePatchCheckDone s = .next (settle s (match checkPatch buf t with
        | some f => ends .refused (some .mapInconsistent) (f.1 * 2 ^ 24 + f.2 % 2 ^ 24) s
        | none => ends .completed none 0 { clearStale t with
            agenda := s.flt.vehicles.map (fun p => .revise p.1) ++ s.flt.vehicles.map (fun p => .attempt p.1) })))

/-! ### Selection -/

/-- The pending list puts an order of higher rank first, and of equal rank the one taken first: the order evaluated next
has the highest rank of the pending orders whose stale flag is clear, and of those with its rank the lowest intake
sequence. EVALUATION_START: while an evaluation runs, HOLD is set, the fleet is not OPERATING, a ROUTE_PATCH waits, or no
pending order has its stale flag clear, nothing starts. Else the first such order is under evaluation: its first pass
begins with the candidate snapshot at the lowest vehicle number; an order that is ineligible, or finds no candidate, has
its flag set. -/
def Obligations.AnEvaluationStartsWithTheFirstFreshOrder : Prop :=
  (∀ (s : State) (k : Nat) (o : OrderRec), firstFresh s = some (k, o) →
       ((k, o) ∈ moves s ∧ o.state = .pending ∧ o.stale = false) ∧
       ∀ j p, (j, p) ∈ moves s → p.state = .pending → p.stale = false →
         64 * p.cls + p.age < 64 * o.cls + o.age ∨
         (64 * p.cls + p.age = 64 * o.cls + o.age ∧ o.seq.toNat ≤ p.seq.toNat)) ∧
  ∀ s : State, Quiet s →
    let idle := { s.dsp with evaluating := false, order := none, snapshot := [], position := none, best := none, restarts := 0, changeSeen := false }
    (s.dsp.evaluating = true ∨ s.win.hold = true ∨ s.flt.phase ≠ .operating ∨ patchWaits s = true ∨ firstFresh s = none →
      exec .evaluationStart s = .next (finish s s)) ∧
    ∀ k o, s.dsp.evaluating = false → s.win.hold = false → s.flt.phase = .operating → patchWaits s = false →
      firstFresh s = some (k, o) →
      (eligible s o = true → ∀ c cs, snapshot s o = c :: cs →
        exec .evaluationStart s = .next (finish s { s with dsp := { s.dsp with
          evaluating := true, order := some k, snapshot := c :: cs, position := some c.1, best := none, restarts := 0,
          changeSeen := false } })) ∧
      (eligible s o = false ∨ snapshot s o = [] → orderAt s k = some o →
        exec .evaluationStart s = .next (finish s { s with
          dsp := idle, orders := tset none s.orders k (some (.move { o with stale := true })) }))

/-- SCORE_STEP: the vehicle at the scoring position that still meets the record conditions for its kind, and has a
score, becomes the best so far if there is none or it is better; the position passes to the next vehicle of the
snapshot. -/
def Obligations.AScoreStepKeepsTheBetterCandidate : Prop :=
  ∀ (k v : Nat) (o : OrderRec) (kind : CandKind) (s : State), Quiet s → s.dsp.order = some k → orderAt s k = some o →
    s.dsp.position = some v → s.dsp.snapshot.find? (fun p => decide (p.1 = v)) = some (v, kind) →
    let best : Option Best :=
      if candidate s o v = some kind then
        match score s o v kind, s.dsp.best with
        | none, b => b
        | some n, none => some { vehicle := v, kind := kind, score := n }
        | some n, some b =>
          if n < b.score ∨ (n = b.score ∧ (kind = .direct ∧ b.kind = .chain ∨ kind = b.kind ∧ v < b.vehicle)) then
            some { vehicle := v, kind := kind, score := n }
          else some b
      else s.dsp.best
    exec .scoreStep s = .next (finish s { s with dsp := { s.dsp with
      best := best, position := (s.dsp.snapshot.find? (fun p => decide (v < p.1))).map (fun p => p.1) } })

/-- EVALUATION_COMPLETION of a pass with a best candidate that passes the re-check assigns the order and ends the evaluation,
whose end lets a waiting ROUTE_PATCH pass to its checks: a source that is a shelf is RESERVED_PICK, and a destination that is
a bay has its drop shelf chosen and RESERVED_DROP; the order is ASSIGNED to a direct candidate, which goes TO_SOURCE towards
the source station's node and gives up its park node, or CHAINED behind a chain candidate's delivery. EVALUATION_COMPLETION
without an assignment: a pass with no best candidate, or whose order is no longer eligible, ends the evaluation, setting the
order's stale flag unless an availability change was seen; a best candidate that fails the re-check begins the pass anew, at
most three times. Before the pass is complete nothing happens. That the park node is offered after the vehicle's own tasks is
the model's choice (log 5). -/
def Obligations.ACompletedPassAssignsEndsOrRestarts : Prop :=
  let ended (t : State) : State := { t with
    dsp := { t.dsp with
      evaluating := false, order := none, snapshot := [], position := none, best := none, restarts := 0, changeSeen := false },
    map := { t.map with run := match t.map.run with
      | .waiting buf => .checking buf
      | x => x } }
  (∀ (k a g : Nat) (o : OrderRec) (b : Best) (s : State), Quiet s → s.dsp.evaluating = true → s.dsp.position = none →
     s.dsp.order = some k → orderAt s k = some o → s.dsp.best = some b → o.source = .station a → stationNode s a = some g →
     eligible s o = true → recheck s o b = true →
     let r := veh s b.vehicle
     let picked : State :=
       if isShelf s a then putShelf a { shelfAt s a with logical := .reservedPick, reserving := some k } s else s
     let reserved : State := match o.dest with
       | .station _ => picked
       | .buffer i => match dropChoice picked i with
         | some st => reserveDrop k st picked
         | none => picked
     ∀ o1, orderAt reserved k = some o1 →
     let given (st : OrderState) : State := { reserved with
       orders := tset none reserved.orders k (some (.move { o1 with state := st, vehicle := some b.vehicle, assigned := some s.clock })) }
     (b.kind = .direct → exec .evaluationCompletion s = .next (settle s { ended (putVeh b.vehicle { r with
         state := .toSource, current := some k, park := none, circulating := false, target := some g } (given .assigned)) with
       agenda := (if standingAt r = some g then [.arrival b.vehicle] else []) ++ [.revise b.vehicle, .attempt b.vehicle] ++
         (match r.park with
          | some n => [.offer n]
          | none => []) })) ∧
     (b.kind = .chain → exec .evaluationCompletion s = .next (finish s
       (ended (putVeh b.vehicle { r with chained := some k } (given .chained)))))) ∧
  (∀ (k : Nat) (o : OrderRec) (s : State), Quiet s → s.dsp.order = some k → orderAt s k = some o →
     let unassigned : State := ended { s with
       orders := if s.dsp.changeSeen then s.orders else tset none s.orders k (some (.move { o with stale := true })) }
     (s.dsp.evaluating = false ∨ s.dsp.position ≠ none → exec .evaluationCompletion s = .next (finish s s)) ∧
     (s.dsp.evaluating = true → s.dsp.position = none →
       (s.dsp.best = none → exec .evaluationCompletion s = .next (finish s unassigned)) ∧
       ∀ b, s.dsp.best = some b →
         (eligible s o = false → exec .evaluationCompletion s = .next (finish s unassigned)) ∧
         (eligible s o = true → recheck s o b = false →
           (3 ≤ s.dsp.restarts ∨ snapshot s o = [] → exec .evaluationCompletion s = .next (finish s unassigned)) ∧
           (s.dsp.restarts < 3 → ∀ c cs, snapshot s o = c :: cs →
             exec .evaluationCompletion s = .next (finish s { s with dsp := { s.dsp with
               restarts := s.dsp.restarts + 1, snapshot := c :: cs, position := some c.1, best := none } })))))

/-! ### Ends of MOVEs -/

/-- A live MOVE that reaches FINISHED leaves nothing behind: its record is gone and its slot is owed progress, result
and DONE; every shelf reserved for it is FREE and no other shelf changes; the vehicle that held it holds it no longer,
its hoist cycle having ended with it, and no other vehicle changes, none at all for an order that no vehicle held; other
orders keep their records, but for the stale flag; an evaluation of it is over. -/
def Obligations.AFinishedMoveLeavesNothingBehind : Prop :=
  ∀ (k : Nat) (o : OrderRec) (code : ResultCode) (reason : Option Reason) (place : Place) (s : State), Sound s →
    orderAt s k = some o →
    let t := finishOrder k code reason place s
    let fresh (r : OrderRec) : OrderRec := { r with stale := false }
    liveAt t k = none ∧
    slotDueAt t k = { taken := false, final := some (moveFinal { o with ended := some s.clock } code reason 0 place) } ∧
    (∀ j, j ≠ k → slotDueAt t j = slotDueAt s j ∧ (orderAt t j).map fresh = (orderAt s j).map fresh) ∧
    (∀ st, shelfAt t st = if (shelfAt s st).reserving = some k then { shelfAt s st with logical := .free, reserving := none }
      else shelfAt s st) ∧
    (s.dsp.order = some k → t.dsp.evaluating = false ∧ t.dsp.order = none ∧ t.dsp.best = none ∧ t.dsp.snapshot = []) ∧
    (o.vehicle = none → ∀ w, veh t w = veh s w) ∧
    ∀ v, o.vehicle = some v → (veh s v).state ≠ .offline →
      (∀ w, w ≠ v → veh t w = veh s w) ∧
      veh t v = { veh s v with
        current := if (veh s v).current = some k then none else (veh s v).current,
        hoist := if (veh s v).current = some k then none else (veh s v).hoist,
        chained := if (veh s v).chained = some k then none else (veh s v).chained }

/-! ### Arrivals and parking -/

/-- The arrival handling of a record that stands at its route target without UNCERTAIN acts by its state. TO_SOURCE with its
order ASSIGNED, and TO_DEST with it CARRYING, at the node of the order's source, and of its destination or chosen shelf: the
order is PICKING or PLACING and a hoist cycle is begun, QUEUED and all-busy, its HOIST handed with the next tag and a send
count of 0. PARKING at its reserved park node: it is IDLE, its reservation kept. Circulating: with a park node to choose it
is IDLE there or heads for it; with none it is IDLE at the entry node, or heads for that. MANUAL at the JOG's node: the JOG
ends COMPLETED and the record is HOLDING or IDLE as before it. In any other state, away from its target, or without one,
nothing happens; nor while UNCERTAIN, whose vehicle makes no progress by R104: R106 has no such condition, that the handling is
not made then is the model's choice (log 18). -/
def Obligations.AnArrivalActsByTheState : Prop :=
  ∀ (v : Nat) (s : State), Sound s →
    let r := veh s v
    (r.uncertain = true ∨ standingAt r = none ∨ r.target = none ∨ standingAt r ≠ r.target ∨
        r.state ∉ [.toSource, .toDest, .parking, .manual] → arrival v s = s) ∧
    ∀ g, standingAt r = some g → r.target = some g → r.uncertain = false →
      let begins (k st : Nat) (o : OrderRec) (state : OrderState) (kind : HoistKind) (carrier : Option (List Byte)) : State :=
        let h : HoistCycle := { kind := kind, station := st, carrier := carrier, phase := .queued, firstSend := none,
                                acceptTime := none, retryFrom := none, allBusy := true, sentOnce := false }
        let l := linkAt s v
        let put : State := { s with orders := tset none s.orders k (some (.move { o with state := state })) }
        queueHoist v (putLink v { l with tag := l.tag + 1, sends := 0 } (putVeh v { r with hoist := some h } put))
      (∀ k o st, r.current = some k → orderAt s k = some o → stationNode s st = some g →
        (r.state = .toSource → o.source = .station st → o.state = .assigned →
          arrival v s = begins k st o .picking .load o.carrier) ∧
        (r.state = .toDest → destStation o = some st → o.state = .carrying →
          arrival v s = begins k st o .placing .unload o.carrier)) ∧
      (r.state = .parking → r.circulating = false →
        (r.park = some g → arrival v s = push [.revise v] (putVeh v { r with state := .idle, target := none } s)) ∧
        (r.park ≠ some g → arrival v s = s)) ∧
      (r.state = .parking → r.circulating = true →
        let stops (p : Option Nat) : State :=
          push [.revise v] (putVeh v { r with state := .idle, target := none, circulating := false, park := p } s)
        (parkChoice s v = some g → arrival v s = stops (some g)) ∧
        (∀ n, parkChoice s v = some n → n ≠ g → arrival v s = parkAt v n s) ∧
        (∀ e, parkChoice s v = none → (bayAt s r.pool).map (fun b => b.entryNode) = some e →
          arrival v s = if e = g then stops none else
            push [.revise v, .attempt v] (putVeh v { r with target := some e } s))) ∧
      (r.state = .manual → ∀ j, r.jog = some j →
        (j.node ≠ g → arrival v s = s) ∧
        (j.node = g →
          let t := putVeh v { veh s v with jog := none } (endDirective j.slot .completed none 0 0 s)
          arrival v s = if j.holding then
            push (.revise v :: (match r.park with
              | some n => [.offer n]
              | none => []))
              (putVeh v { r with state := .holding, target := none, circulating := false, park := none, jog := none } t)
          else push [.parking v, .revise v]
            (putVeh v { r with state := .idle, target := none, circulating := false, jog := none } t)))

/-- The park node that the rule gives a record: where it stands, if its home bay's list has that node and no other record
reserves it; else the first of the list that no other reserves. The parking rule, to a record IDLE with no order, UNCERTAIN
or retiring mark: standing at that node it reserves it and stays IDLE; else it reserves it and is PARKING towards it; with
none it circulates: PARKING, towards the entry node of its home bay or, standing there, one node on. A node given up is
offered. A park node that is offered and reserved by none goes to the lowest record that is IDLE, standing, without a park
node, UNCERTAIN or the retiring mark, whose home bay lists it. A nudged record, IDLE and standing: at its own park node it
takes the next free one of the list, wrapping round, or circulates with none; elsewhere it circulates. That a nudged record
that stands elsewhere gives up a park node it reserves is the model's choice (log 55), and so is the order of what is asked for
(log 5). -/
def Obligations.ParkingChoosesOffersAndNudges : Prop :=
  (∀ (v : Nat) (s : State),
     let r := veh s v
     let taken (n : Nat) : Prop := ∃ p ∈ s.flt.vehicles, p.1 ≠ v ∧ p.2.park = some n
     let offers (n : Nat) : List Task := if r.park = some n then [] else (match r.park with
       | some o => [.offer o]
       | none => [])
     let gives : List Task := match r.park with
       | some o => [.offer o]
       | none => []
     let tasks (g : Nat) : List Task := (if standingAt r = some g then [.arrival v] else []) ++ [.revise v, .attempt v]
     (∀ n, standingAt r = some n → n ∈ parkList s r.pool → ¬ taken n → parkChoice s v = some n) ∧
     (∀ n, parkChoice s v = some n → n ∈ parkList s r.pool ∧ ¬ taken n ∧
       (standingAt r ≠ some n → (∀ x, standingAt r = some x → x ∉ parkList s r.pool ∨ taken x) ∧
         ∃ before after, parkList s r.pool = before ++ n :: after ∧ ∀ x ∈ before, taken x)) ∧
     (parkChoice s v = none → ∀ n ∈ parkList s r.pool, taken n) ∧
     (∀ n, parkAt v n s = push (tasks n ++ offers n)
       (putVeh v { r with state := .parking, circulating := false, park := some n, target := some n } s)) ∧
     (∀ e, (bayAt s r.pool).map (fun b => b.entryNode) = some e →
       (standingAt r ≠ some e → circulate v s = push (tasks e ++ gives)
         (putVeh v { r with state := .parking, circulating := true, park := none, target := some e } s)) ∧
       (∀ k g, standingAt r = some e → loopNext s e = some k → segTo s k = some g → circulate v s = push (tasks g ++ gives)
         (putVeh v { r with state := .parking, circulating := true, park := none, target := some g } s))) ∧
     (r.state ≠ .idle ∨ r.current ≠ none ∨ r.uncertain = true ∨ r.retiring = true → parkingRule v s = s) ∧
     (r.state = .idle → r.current = none → r.uncertain = false → r.retiring = false →
       (∀ n, parkChoice s v = some n → standingAt r = some n →
         parkingRule v s = push (.revise v :: offers n) (putVeh v { r with park := some n } s)) ∧
       (∀ n, parkChoice s v = some n → standingAt r ≠ some n → parkingRule v s = parkAt v n s) ∧
       (parkChoice s v = none → parkingRule v s = circulate v s)) ∧
     (r.state ≠ .idle ∨ standingAt r = none ∨ r.uncertain = true ∨ r.retiring = true → nudge v s = s) ∧
     (∀ n, r.state = .idle → standingAt r = some n → r.uncertain = false → r.retiring = false →
       (r.park ≠ some n → nudge v s = circulate v s) ∧
       (r.park = some n → ∀ before after, parkList s r.pool = before ++ n :: after → n ∉ before →
         (∀ m xs ys, after ++ before = xs ++ m :: ys → (∀ x ∈ xs, taken x) → ¬ taken m → nudge v s = parkAt v m s) ∧
         ((∀ x ∈ after ++ before, taken x) → nudge v s = circulate v s)))) ∧
  (∀ (n : Nat) (s : State),
     let takes (r : Vehicle) : Prop := r.state = .idle ∧ standingAt r ≠ none ∧ r.park = none ∧ r.uncertain = false ∧
       r.retiring = false ∧ n ∈ parkList s r.pool
     ((∃ p ∈ s.flt.vehicles, p.2.park = some n) ∨ (∀ p ∈ s.flt.vehicles, ¬ takes p.2) → offer n s = s) ∧
     (∀ before v r after, (∀ p ∈ s.flt.vehicles, p.2.park ≠ some n) → s.flt.vehicles = before ++ (v, r) :: after → takes r →
       (∀ p ∈ before, ¬ takes p.2) → offer n s = parkAt v n s))

/-! ### Inbound frames -/

/-- PASS from a vehicle that is not OFFLINE or LOST: at the to node of a path segment before the limit it leaves the
path up to there, moves onto the next path segment with the PASS's time (measurable unless FAULTED, LOST or bound for
its limit), hands on the measurement of a single step, and has the zones left behind released (one of which it travelled no
segment last: the model's choice, log 48) and its extension attempted; a repeat changes nothing more; any other PASS makes it UNCERTAIN, with a STAND and its wait revised. -/
def Obligations.APassIsPlacedOnThePath : Prop :=
  ∀ (v n held : Nat) (s : State), Quiet s → s.tsl.linkHold = false → v < 256 → n < 2048 → (held < 2048 ∨ held = 65535) →
    (veh s v).state ≠ .offline → (veh s v).state ≠ .lost →
    let c := noteNode v n (heard v held s)
    let r := veh c v
    exec (.pass v n held false) s = .next (settle s (answered v (
      if r.uncertain = true then c
      else match endsAt c n r.path.dropLast with
        | some i => match r.path.drop (i + 1) with
          | [] => c
          | k :: rest =>
            let m : Bool := !decide (r.state = .faulted) && !decide (r.state = .lost) && !decide (segTo c k = limitOf c r)
            let p1 : Position := { standing := none, segment := k, entry := s.clock, measurable := m }
            let moved := putVeh v { r with path := k :: rest, pos := some p1 } c
            let learned := match r.pos with
              | some p =>
                if i = 0 ∧ p.measurable = true ∧ p.standing = none then
                  measure p.segment (min 65535 (elapsed s.clock p.entry)) moved
                else moved
              | none => moved
            let t := windowNotice v learned
            { t with agenda := c.agenda ++ ((leftBehind c t v (r.path.take (i + 1))).map (fun z => .release v z) ++ [.attempt v]) }
        | none =>
          if repeatPass c r n = true then c
          else
            let u := queueStand v (putVeh v { r with uncertain := true, pos := r.pos.map (fun p => { p with measurable := false }) } c)
            { u with agenda := c.agenda ++ [.revise v] })))

/-- ARRIVE from a vehicle that is not OFFLINE or LOST: at the to node of a path segment it stands there with the rest of
its path; a retiring record with none left ends (an order it may have is left as it is: the model's choice, log 59); else zones
left behind are released (one of which it travelled no segment last: the model's choice, log 48), the arrival is handled if it
is at its target, and extension is attempted; a repeat changes nothing more; any other ARRIVE makes it UNCERTAIN. -/
def Obligations.AnArriveIsPlacedOnThePath : Prop :=
  ∀ (v n held : Nat) (s : State), Quiet s → s.tsl.linkHold = false → v < 256 → n < 2048 → (held < 2048 ∨ held = 65535) →
    (veh s v).state ≠ .offline → (veh s v).state ≠ .lost →
    let c := noteNode v n (heard v held s)
    let r := veh c v
    exec (.arrive v n held false) s = .next (settle s (answered v (
      if r.uncertain = true ∨ standingAt r = some n then c
      else match endsAt c n r.path with
        | some i =>
          let k := r.path.getD i 0
          let rest := r.path.drop (i + 1)
          let p1 : Position := { standing := some n, segment := k, entry := 0, measurable := false }
          let t := putVeh v { r with path := rest, pos := some p1 } c
          let behind : List Task := (leftBehind c t v (r.path.take (i + 1))).map (fun z => .release v z)
          if r.retiring = true ∧ rest = [] then
            push (behind ++ (segZone c k).toList.map (fun z => .release v z)) (emptyRecord v t)
          else { t with agenda := c.agenda ++ (behind ++ (if r.target = some n then [.arrival v] else []) ++ [.attempt v]) }
        | none =>
          let u := queueStand v (putVeh v { r with uncertain := true, pos := r.pos.map (fun p => { p with measurable := false }) } c)
          { u with agenda := c.agenda ++ [.revise v] })))

/-- HOIST_REPLY from a vehicle that is not OFFLINE or LOST restarts its silence timer. With another tag it does nothing
more; with the cycle's tag it stops the reply wait, and to a cycle AWAITING: ACCEPT turns TO_SOURCE into LOADING and
TO_DEST into UNLOADING, the cycle ACCEPTED; BUSY makes it wait for its retry, or at the hoist wait limit fails the order
PORT_NOT_READY; REFUSE fails it HOIST_REFUSED and sets QUARANTINED. A queued resend is taken out; that any queued HOIST of an
AWAITING cycle is counted as one, also that which the clearing of LINK_HOLD (R169) or FLT after a BUSY handed again, is the
model's choice (log 42). -/
def Obligations.AHoistReplyMovesTheCycle : Prop :=
  ∀ (v tag ans : Nat) (s : State), Quiet s → s.tsl.linkHold = false → v < 256 → 1 ≤ ans → ans ≤ 3 →
    (veh s v).state ≠ .offline → (veh s v).state ≠ .lost →
    let c := restartSilence v s
    let stopped := modLink v (fun l => { l with replyWait := none }) c
    (tag ≠ (linkAt s v).tag.toNat → exec (.hoistReply v tag ans false) s = .next (settle s (answered v c))) ∧
    (tag = (linkAt s v).tag.toNat →
      ((∀ h, (veh s v).hoist = some h → h.phase ≠ .awaiting) →
        exec (.hoistReply v tag ans false) s = .next (settle s (answered v stopped))) ∧
      ∀ h, (veh s v).hoist = some h → h.phase = .awaiting →
        let t : State := { stopped with tsl := { stopped.tsl with hoistQueue := dequeue v stopped.tsl.hoistQueue } }
        let place : Place := if h.kind = .load then .source else .vehicle
        let r := veh s v
        exec (.hoistReply v tag ans false) s = .next (settle s (answered v (
          if ans = 1 then
            let state := if r.state = .toSource then .loading else if r.state = .toDest then .unloading else r.state
            putVeh v { r with
              state := state, hoist := some { h with allBusy := false, phase := .accepted, acceptTime := some s.clock } } t
          else if ans = 2 then
            if hoistWaitOver s h.firstSend = true then failHoist v h .portNotReady place t
            else putVeh v { r with hoist := some { h with phase := .retryWait, retryFrom := some s.clock } } t
          else failHoist v h .hoistRefused place (putVeh v { r with quarantined := true } t)))))

/-- HOIST_END from a vehicle that is not OFFLINE or LOST restarts its silence timer. With another tag it does nothing more;
with the cycle's tag it stops the reply wait and takes out a queued resend (as which any queued HOIST of an AWAITING cycle
counts, the model's choice, log 42), and does nothing more where there is no cycle or
one that is not AWAITING or ACCEPTED. To such a cycle: LOADED frees the source shelf's RESERVED_PICK (before a drop shelf is
chosen: the model's choice, log 50) and placed mark and records the ID read: if the order names another ID it fails
ID_MISMATCH and the vehicle is HOLDING; else the order is CARRYING and the vehicle goes TO_DEST towards its destination
station or chosen shelf; a bay's shelf that was not chosen is chosen now and reserved, or, with none choosable, the order
fails DEST_OCCUPIED and the vehicle is HOLDING. UNLOADED sets a shelf's placed mark and completes the order; EMPTY_SOURCE
fails it PICKUP_EMPTY; BLOCKED fails it DEST_OCCUPIED; JAM, or an outcome of the other kind, fails it HOIST_FAULT with the
vehicle FAULTED. -/
def Obligations.AHoistEndDecidesTheOrder : Prop :=
  ∀ (v tag out : Nat) (id : List Byte) (s : State), Quiet s → s.tsl.linkHold = false →
    v < 256 → 1 ≤ out → out ≤ 5 → id.length ≤ 32 → (veh s v).state ≠ .offline → (veh s v).state ≠ .lost →
    let c := replyTaken v (restartSilence v s)
    let answers (b : State) : Prop := exec (.hoistEnd v tag out id false) s = .next (settle s (answered v b))
    (tag ≠ (linkAt s v).tag.toNat → answers (restartSilence v s)) ∧
    (tag = (linkAt s v).tag.toNat → (∀ h, (veh s v).hoist = some h → h.phase ≠ .awaiting ∧ h.phase ≠ .accepted) → answers c) ∧
    ∀ (k : Nat) (h : HoistCycle) (o : OrderRec), tag = (linkAt s v).tag.toNat → (veh s v).hoist = some h →
    h.phase = .awaiting ∨ h.phase = .accepted → (veh s v).current = some k → orderAt s k = some o →
    let loadedAt := setPlaced h.station false (freePick h.station c)
    let read : Option (List Byte) := if id = [] then none else some id
    let mismatch : Prop := o.carrier ≠ none ∧ o.carrier ≠ read
    (h.kind = .load → out = 1 → ∀ o1, orderAt loadedAt k = some o1 →
      (mismatch → answers (toHolding v (endCycle v (rependChained v
        (failMove k .idMismatch .vehicle (putOrder k { o1 with readId := read } loadedAt)))))) ∧
      (¬ mismatch →
        let o2 : OrderRec := { o1 with
          readId := read, state := .carrying, loaded := some s.clock, cancelTooLate := o1.cancelTooLate || o1.cancelDeferred }
        let b := modVeh v (fun r => { r with state := .toDest })
          (putOrder k o2 (endCycle v (putOrder k { o1 with readId := read } loadedAt)))
        (∀ d g, destStation o2 = some d → stationNode s d = some g → answers (setTarget v g b)) ∧
        ∀ i, o1.dest = .buffer i → o1.chosen = none →
          (∀ st g, dropChoice b i = some st → stationNode s st = some g → answers (setTarget v g (reserveDrop k st b))) ∧
          (dropChoice b i = none → answers (toHolding v (endCycle v (rependChained v (failMove k .destOccupied .vehicle
            (putOrder k { o2 with chosen := none, shelfChosen := false } b)))))))) ∧
    (h.kind = .unload → out = 3 → answers (completeMove v k (setPlaced h.station true c))) ∧
    (h.kind = .load → out = 2 → answers (failHoist v h .pickupEmpty .unknown (setPlaced h.station false c))) ∧
    (h.kind = .unload → out = 4 → answers (failHoist v h .destOccupied .vehicle c)) ∧
    ((h.kind = .load ∧ out ∉ [1, 2]) ∨ (h.kind = .unload ∧ out ∉ [3, 4]) →
      answers (enterFaulted v .hoistJam (failMove k .hoistFault .unknown c)))

/-- STATUS from a vehicle that is not OFFLINE or LOST: FAULT makes it FAULTED with the code reported, or replaces the
code of one FAULTED already; RUN of a FAULTED one clears its code, sets QUARANTINED and makes it HOLDING with a load,
IDLE without; RUN with a load of an IDLE or PARKING one makes it HOLDING; else nothing but the silence timer and the
held limit. A RUN whose held limit has just made the vehicle FAULTED recovers it in an act of its own (log 41). -/
def Obligations.AStatusReportsFaultOrRun : Prop :=
  ∀ (v code load held : Nat) (s : State), Quiet s → s.tsl.linkHold = false → v < 256 → (held < 2048 ∨ held = 65535) →
    (veh s v).state ≠ .offline → (veh s v).state ≠ .lost →
    let c := heard v held s
    let r := veh c v
    (code ≠ 0 → exec (.status v 1 code load held false) s = .next (settle s (answered v (
      if r.state = .faulted then putVeh v { r with fault := .reported code } c
      else enterFaulted v (.reported code) c)))) ∧
    exec (.status v 0 0 load held false) s = .next (settle s (answered v (
      if r.state = .faulted ∧ (veh s v).state ≠ .faulted then { c with agenda := c.agenda ++ [.recover v load] }
      else if r.state = .faulted then
        let c1 := putVeh v { r with quarantined := true, fault := .none_ } c
        if load = 0 then toIdle v c1 else toHolding v c1
      else if (r.state = .idle ∨ r.state = .parking) ∧ load ≠ 0 then toHolding v c
      else c)))

/-- SCAN for a bay with a rack, on a COMMITTED map: a repeat of the last completed sequence with no assembly open
changes nothing; else its rows join the assembly of its sequence, a new one if another was open. Without the last-frame
mark the assembly stays open; with it a complete scan is applied, its sequence is the last completed, and the silence
timer runs anew, while one with rows missing is discarded. A complete scan confirms each shelf of the rack: the state
inferred is sensed at once where it already is, is sensed now where it was pending, and else is pending; a shelf that comes
to be sensed EMPTY loses its placed mark; if any shelf's sensed state or placed mark changed, every pending order's stale flag
is cleared and an evaluation in flight notes the change, and else no order and nothing of the Dispatch Engine changes. The
reserved drops that left EMPTY are then chosen anew, in rising number. Of a frame's rows those of the rack are entered with the
rack's columns, the later reading of a row replacing the earlier, and the others disregarded. -/
def Obligations.AScanFrameJoinsItsAssembly : Prop :=
  (∀ (b q first : Nat) (last : Bool) (rows : List Nat) (e : BayEntry) (s : State), Quiet s → s.tsl.linkHold = false → b < 64 →
    first < 8 → 1 ≤ rows.length → first + rows.length ≤ 8 → committed s = true → bayAt s b = some e →
    e.rows ≠ 0 → e.cols ≠ 0 →
    let k := rackAt s b
    let got : Table (Option Nat) := match k.assembly with
      | some a => if a.seq = q then a.rows else []
      | none => []
    let t := enterRows e first rows got
    exec (.scan (256 + b) q first last rows false) s = .next (
      if k.lastSeq = some q ∧ k.assembly = none then finish s s
      else if last = false then finish s (putRack b { k with assembly := some { seq := q, rows := t } } s)
      else if (∀ i < e.rows, tget none t i ≠ none) then
        settle s (applyScan e t (putRack b { assembly := none, lastSeq := some q, timer := some s.clock } s))
      else finish s (putRack b { k with assembly := none } s))) ∧
  (∀ (e : BayEntry) (first : Nat) (rows : List Nat) (got : Table (Option Nat)) (r : Nat),
    (∀ i x, rows[i]? = some x → r = first + i → r < e.rows → tget none (enterRows e first rows got) r = some (x % 2 ^ e.cols)) ∧
    (r < first ∨ first + rows.length ≤ r ∨ e.rows ≤ r → tget none (enterRows e first rows got) r = tget none got r)) ∧
  ∀ (e : BayEntry) (rows : Table (Option Nat)) (s : State), Sound s → ∃ t : State,
    applyScan e rows s = rechooseAll ((rackShelves e).filter (fun st => decide ((shelfAt s st).sensed = some .empty) &&
      !decide ((shelfAt t st).sensed = some .empty) && decide ((shelfAt t st).logical = .reservedDrop))) t ∧
    { t with buf := s.buf, orders := s.orders, dsp := s.dsp } = s ∧ t.buf.racks = s.buf.racks ∧
    (∀ r c, r < e.rows → c < e.cols →
      let h := shelfAt s (e.firstShelf + (r * e.cols + c))
      let x := infer e rows r c
      let same : Bool := decide (h.sensed = some x)
      let now : Option Sense := if same || decide (h.pending = some x) then some x else h.sensed
      shelfAt t (e.firstShelf + (r * e.cols + c)) = { h with
        raw := some (if readPresent rows r c then .present else .absent), inferred := some x, sensed := now,
        pending := if same || decide (h.pending = some x) then none else some x,
        placed := h.placed && !(decide (now = some .empty) && !decide (h.sensed = some .empty)) }) ∧
    (∀ st, st ∉ rackShelves e → shelfAt t st = shelfAt s st) ∧
    let changes : Prop := ∃ st ∈ rackShelves e, (shelfAt t st).sensed ≠ (shelfAt s st).sensed ∨
      (shelfAt t st).placed ≠ (shelfAt s st).placed
    (¬ changes → t.orders = s.orders ∧ t.dsp = s.dsp) ∧
    (changes → t.dsp = { s.dsp with changeSeen := s.dsp.changeSeen || s.dsp.evaluating } ∧
      t.orders = s.orders.map (fun p => (p.1, match p.2 with
        | some (.move o) => some (.move (if o.state = .pending then { o with stale := false } else o))
        | l => l)))

/-- Frames that are not taken. Under LINK_HOLD, or if its reception began before LINK_HOLD was last cleared (log 13), a frame
has no effect. Bytes that fail a test of their check, source, length or fields are discarded and logged as LINK_FRAME or
UNKNOWN_SOURCE, and so is each frame whose address or fields fail. A frame from an OFFLINE record is answered with STAND; one
from a LOST record makes it FAULTED, UNCERTAIN and QUARANTINED with code SILENCE, its timer running and a STAND queued, and
its wait is revised; that a PASS or ARRIVE from a LOST record leaves the last reported node is the model's choice (log 54). -/
def Obligations.FramesThatAreNotTaken : Prop :=
  ∀ (bs id : List Byte) (v n held tag ans out cond code load q first : Nat) (last : Bool) (rows : List Nat) (early : Bool)
    (s : State), Quiet s →
    let frames (early : Bool) : List (Instr × Nat) :=
      [(.pass v n held early, 0x11), (.arrive v n held early, 0x12), (.hoistReply v tag ans early, 0x13),
       (.hoistEnd v tag out id early, 0x14), (.status v cond code load held early, 0x15)]
    let logs (c : Instr) (kind : LogKind) (detail : Nat) : Prop := exec c s = .next (finish s (logError kind detail s))
    let goodHeld : Prop := held < 2048 ∨ held = 65535
    let goodStatus : Prop := cond = 0 ∧ code = 0 ∨ cond = 1 ∧ code ≠ 0
    (early = true ∨ s.tsl.linkHold = true →
      exec (.discardedFrame bs early) s = .next (finish s s) ∧ exec (.scan v q first last rows early) s = .next (finish s s) ∧
      ∀ p ∈ frames early, exec p.1 s = .next (finish s s)) ∧
    (s.tsl.linkHold = false →
      (∀ kind detail, examine bs = .discard kind detail → logs (.discardedFrame bs false) kind detail) ∧
      (256 ≤ v → ∀ p ∈ frames false, logs p.1 .unknownSource (v % 512 + p.2 * 2 ^ 16)) ∧
      (v < 256 ∨ 320 ≤ v → logs (.scan v q first last rows false) .unknownSource (v % 512 + 0x21 * 2 ^ 16)) ∧
      (v < 256 → 2048 ≤ n ∨ ¬ goodHeld → ∀ p ∈ (frames false).take 2, logs p.1 .linkFrame (v % 512 + p.2 * 2 ^ 16 + 3 * 2 ^ 24)) ∧
      (v < 256 → ans = 0 ∨ 3 < ans → logs (.hoistReply v tag ans false) .linkFrame (v % 512 + 0x13 * 2 ^ 16 + 3 * 2 ^ 24)) ∧
      (v < 256 → out = 0 ∨ 5 < out ∨ 32 < id.length →
        logs (.hoistEnd v tag out id false) .linkFrame (v % 512 + 0x14 * 2 ^ 16 + 3 * 2 ^ 24)) ∧
      (v < 256 → ¬ goodStatus ∨ ¬ goodHeld →
        logs (.status v cond code load held false) .linkFrame (v % 512 + 0x15 * 2 ^ 16 + 3 * 2 ^ 24)) ∧
      (256 ≤ v → v < 320 → 8 ≤ first ∨ rows = [] ∨ 8 < first + rows.length →
        logs (.scan v q first last rows false) .linkFrame (v % 512 + 0x21 * 2 ^ 16 + 3 * 2 ^ 24)) ∧
      (v < 256 → n < 2048 → goodHeld → 1 ≤ ans → ans ≤ 3 → 1 ≤ out → out ≤ 5 → id.length ≤ 32 → goodStatus →
        ((veh s v).state = .offline → ∀ p ∈ frames false, exec p.1 s = .next (finish s (queueStand v s))) ∧
        ((veh s v).state = .lost → ∀ p ∈ frames false, exec p.1 s = .next (settle s
          { queueStand v (putVeh v { veh s v with state := .faulted, uncertain := true, quarantined := true, fault := .silence }
              (putLink v { linkAt s v with silence := some s.clock } s)) with agenda := [.revise v] }))))

/-- The held limit of a PASS, ARRIVE or STATUS is compared when the last authority sent is a GRANT, none is queued and
none is on its way: a match clears the confirmation count; a mismatch within the reply window of the GRANT is early; a
late one counts and queues a GRANT, and the fourth makes the vehicle FAULTED, AUTH_STALE. -/
def Obligations.AHeldLimitConfirmsTheAuthority : Prop :=
  ∀ (v held : Nat) (s : State),
    let l := linkAt s v
    let onWay : Bool := match s.tsl.tx with
      | some t => match t.frame with
        | .hoist _ => false
        | _ => decide (t.vehicle = v)
      | none => false
    let early : Bool := l.grantTime.any (fun t => decide (elapsed s.clock t < s.map.globals.replyWindow))
    confirmAuthority v held s =
      if l.lastSent ≠ .grant ∨ (∃ p ∈ s.tsl.grantQueue, p.1 = v) ∨ onWay = true then s
      else if l.sentLimit = some held then putLink v { l with confirm := 0 } s
      else if early = true then s
      else if l.confirm < 3 then queueGrant v (putLink v { l with confirm := l.confirm + 1 } s)
      else enterFaulted v .authStale s

/-! ### Expiries -/

/-- The timers of a hoist cycle, each acting only once its interval has run and only in its phase: BUSY_RETRY_EXPIRY
makes a cycle in RETRY_WAIT QUEUED and hands its HOIST again under the same tag with send count 0; BUSY_LIMIT_EXPIRY
fails the order PORT_NOT_READY in RETRY_WAIT, or in QUEUED after a first send; END_LIMIT_EXPIRY in ACCEPTED acts as a
JAM. -/
def Obligations.HoistTimersActInTheirPhase : Prop :=
  ∀ (v : Nat) (h : HoistCycle) (s : State), Quiet s → (veh s v).hoist = some h →
    let r := veh s v
    let ran (t : Option Time) (limit : Nat) : Bool := t.any (fun t0 => decide (limit ≤ elapsed s.clock t0))
    let limit := s.map.globals.hoistWaitLimit * 1000
    exec (.busyRetryExpiry v) s = .next (finish s (
      if h.phase = .retryWait ∧ ran h.retryFrom s.map.globals.busyRetry = true then
        queueHoist v (modLink v (fun l => { l with sends := 0 })
          (putVeh v { r with hoist := some { h with phase := .queued, retryFrom := none } } s))
      else s)) ∧
    exec (.busyLimitExpiry v) s = .next (settle s (
      if (h.phase = .retryWait ∨ h.phase = .queued) ∧ ran h.firstSend limit = true then
        failHoist v h .portNotReady (if h.kind = .load then .source else .vehicle) s
      else s)) ∧
    exec (.endLimitExpiry v) s = .next (settle s (
      if h.phase = .accepted ∧ ran h.acceptTime limit = true then
        enterFaulted v .hoistJam (match r.current with
          | some k => failMove k .hoistFault .unknown s
          | none => s)
      else s))

/-- REPLY_WAIT_EXPIRY acts once the reply window has run: the wait stops; with the cycle in RETRY_WAIT or QUEUED nothing more
happens (the model's choice, log 49); with it AWAITING its all-busy mark is cleared, and after the first or second send the HOIST is queued again under the same tag, after the third the vehicle is
FAULTED, NO_REPLY. SILENCE_EXPIRY acts once the silence limit has run: the vehicle goes LOST. A vehicle without orders,
JOG, park node and hoist cycle that goes LOST keeps its zones, its path and its fault code, loses target, circulating,
retiring and measurable marks, and has its wait revised; its link has no authority sent, no wait, no timer and nothing
queued; a HOIST to it that is in transmission will start no reply wait, any other frame goes on as it is; no STAND is queued.
One that goes FAULTED takes the code and a STAND, and whatever is in transmission goes on. Of any vehicle that goes FAULTED or LOST: its
current order fails with the carrier aboard, or with its carrier's place unknown once its cycle was sent (where it was if
every send was answered BUSY), ends CANCELLED if it was PICKING, unsent, with a deferred cancel, and else is PENDING again;
its chained order is PENDING again; its JOG fails; its park node is offered; its cycle ends. -/
def Obligations.LinkTimersResendOrReport : Prop :=
  (∀ (v : Nat) (s : State), Quiet s →
     let l := linkAt s v
     let s1 := putLink v { l with replyWait := none } s
     let s2 := modVeh v (fun r => { r with hoist := r.hoist.map (fun h => { h with allBusy := false }) }) s1
     exec (.replyWaitExpiry v) s = .next (settle s (match l.replyWait with
       | none => s
       | some t =>
         if elapsed s.clock t < s.map.globals.replyWindow then s
         else if (veh s v).hoist.any (fun h => decide (h.phase = .awaiting)) = false then s1
         else if 3 ≤ l.sends then enterFaulted v .noReply s2
         else queueHoist v s2)) ∧
     exec (.silenceExpiry v) s = .next (settle s (match l.silence with
       | none => s
       | some t => if elapsed s.clock t < s.map.globals.silenceLimit then s else enterLost v s))) ∧
  (∀ (v : Nat) (code : FaultCode) (s : State), Quiet s → (veh s v).state ≠ .offline → (veh s v).current = none →
     (veh s v).chained = none → (veh s v).jog = none → (veh s v).park = none → (veh s v).hoist = none →
     let r := veh s v
     let out (st : VState) (c : FaultCode) : State := putVeh v { r with
       state := st, fault := c, target := none, circulating := false, retiring := false,
       pos := r.pos.map (fun p => { p with measurable := false }) } s
     enterFaulted v code s = { queueStand v (out .faulted code) with agenda := [.revise v] } ∧
     enterLost v s = { putLink v { linkAt s v with lastSent := .none_, replyWait := none, silence := none } (out .lost r.fault) with
       tsl := { s.tsl with
         grantQueue := s.tsl.grantQueue.filter (fun p => !decide (p.1 = v)),
         hoistQueue := s.tsl.hoistQueue.filter (fun p => !decide (p.1 = v)),
         links := tset {} s.tsl.links v { linkAt s v with lastSent := .none_, replyWait := none, silence := none },
         tx := s.tsl.tx.map (fun x => match x.frame with
           | .hoist _ => if x.vehicle = v then { x with noWait := true } else x
           | _ => x) },
       agenda := [.revise v] }) ∧
  (∀ (v : Nat) (code : FaultCode) (s : State), Sound s → (veh s v).state ≠ .offline →
     ∀ out ∈ [(enterFaulted v code s, Reason.vehicleFault), (enterLost v s, Reason.vehicleLost)],
     let r := veh s v
     let t := out.1
     let gone (k : Nat) (f : Final) : Prop := liveAt t k = none ∧ slotDueAt t k = { taken := false, final := some f }
     let fails (k : Nat) (o : OrderRec) (place : Place) : Prop :=
       gone k (moveFinal { o with cancelTooLate := o.cancelTooLate || o.cancelDeferred, ended := some s.clock }
         .failed (some out.2) 0 place)
     let again (k : Nat) (o : OrderRec) : Prop := orderAt t k = some { o with
       state := .pending, stale := false, vehicle := none, assigned := none, chosen := none, shelfChosen := false }
     let sent : Bool := r.hoist.any (fun h => h.firstSend.isSome)
     let busy : Bool := r.hoist.any (fun h => h.allBusy && !decide (h.phase = .awaiting))
     (∀ k o, r.current = some k → r.chained ≠ some k → orderAt s k = some o → o.vehicle = some v →
       (veh t v).current = none ∧
       (o.state = .assigned → again k o) ∧
       (o.state = .picking → sent = true → fails k o (if busy then .source else .unknown)) ∧
       (o.state = .picking → sent = false → o.cancelDeferred = true →
         gone k (moveFinal { o with ended := some s.clock } .cancelled none 0 .source)) ∧
       (o.state = .picking → sent = false → o.cancelDeferred = false → again k o) ∧
       (o.state = .carrying → fails k o .vehicle) ∧
       (o.state = .placing → fails k o (if sent = true ∧ busy = false then .unknown else .vehicle))) ∧
     (∀ k o, r.chained = some k → r.current ≠ some k → orderAt s k = some o → o.vehicle = some v →
       (veh t v).chained = none ∧ again k o) ∧
     (∀ j d, r.jog = some j → liveAt s j.slot = some (.directive d) →
       gone j.slot { progress := dirProgress d.seq d.taken (some s.clock), code := .failed, reason := some out.2, flags := 0,
                     detail := 0, place := .none_, readId := none, vehicle := none, dest := none, tag := d.tag }) ∧
     (veh t v).jog = none ∧ (veh t v).park = none ∧ (veh t v).hoist = none ∧ (veh t v).target = none ∧
     (veh t v).path = r.path ∧ t.zones = s.zones ∧ .revise v ∈ t.agenda ∧ ∀ n, r.park = some n → .offer n ∈ t.agenda)

/-- The other timers, each acting only once its interval has run: AGING_PERIOD_EXPIRY adds 1 to the age of every pending
order, up to 255, and starts the next period; STALL_LIMIT_EXPIRY marks a wait and sets its zone's stall flag;
CONVOY_EXPIRY makes a RUNNING convoy EXPIRED; RACK_SILENCE_EXPIRY forgets the rack's readings and has the reserved drops
it loses chosen anew. -/
def Obligations.PeriodsAndLimitsExpire : Prop :=
  ∀ (z v m b : Nat) (s : State), Quiet s →
    let period := s.map.globals.agingPeriod * 1000
    exec .agingPeriodExpiry s = .next (finish s (match s.dsp.agingStart with
      | none => s
      | some t =>
        if elapsed s.clock t < period then s
        else { s with
          dsp := { s.dsp with agingStart := some (t + BitVec.ofNat 32 period) },
          orders := s.orders.map (fun p => (p.1, match p.2 with
            | some (.move o) => some (.move { o with age := if o.state = .pending then min 255 (o.age + 1) else o.age })
            | x => x)) })) ∧
    exec (.stallLimitExpiry z v) s = .next (finish s (
      let ws := (zoneRec s z).waiters
      let due (w : Wait) : Bool := decide (w.vehicle = v) && !w.stalled && decide (s.map.globals.stallLimit * 1000 ≤ elapsed s.clock w.since)
      if ws.any due then
        putZone z { zoneRec s z with
          stall := true, waiters := ws.map (fun w => { w with stalled := w.stalled || decide (w.vehicle = v) }) } s
      else s)) ∧
    exec (.convoyExpiry m) s = .next (finish s (match arbiterAt s m with
      | some a =>
        if a.convoy = .running ∧ a.limit ≤ elapsed s.clock a.start then
          { s with arbiters := tset none s.arbiters m (some { a with convoy := .expired }) }
        else s
      | none => s)) ∧
    exec (.rackSilenceExpiry b) s = .next (settle s (match (rackAt s b).timer with
      | none => s
      | some t =>
        if elapsed s.clock t < s.map.globals.rackSilenceLimit then s
        else
          let forgot := (rackOf s b).foldl (fun u st =>
            putShelf st { shelfAt u st with raw := none, inferred := none, pending := none, sensed := none } u) (putRack b {} s)
          rechooseAll ((rackOf s b).filter (fun st =>
            decide ((shelfAt s st).sensed = some .empty) && !decide ((shelfAt forgot st).sensed = some .empty) &&
              decide ((shelfAt forgot st).logical = .reservedDrop))) forgot))

/-! ### The transmitter -/

/-- TRANSMIT_START: IDLE and without LINK_HOLD, the transmitter takes the first GRANT-queue entry, or the first
HOIST-queue entry if the GRANT queue is empty or the alternation mark names GRANT; the mark then names the queue taken
from. A GRANT carries the path and limit as they stand, and one with an empty path is dropped; a HOIST taken marks its
cycle. -/
def Obligations.TheTransmitterAlternates : Prop :=
  ∀ s : State, Quiet s →
    (s.tsl.tx ≠ none ∨ s.tsl.linkHold = true ∨ (s.tsl.grantQueue = [] ∧ s.tsl.hoistQueue = []) →
      exec .transmitStart s = .next (finish s s)) ∧
    (s.tsl.tx = none → s.tsl.linkHold = false →
      (∀ v isGrant q, s.tsl.grantQueue = (v, isGrant) :: q → s.tsl.hoistQueue = [] ∨ s.tsl.mark = .hoist →
        let r := veh s v
        let frame : Option OutFrame :=
          if isGrant = false then some .stand
          else if r.path = [] then none
          else (limitOf s r).map (fun n => .grant r.path n)
        exec .transmitStart s = .next (finish s { s with tsl := { s.tsl with
          grantQueue := q, mark := .grant, tx := frame.map (fun f => { vehicle := v, frame := f, noWait := false }) } })) ∧
      (∀ v e q, s.tsl.hoistQueue = (v, e) :: q → s.tsl.grantQueue = [] ∨ s.tsl.mark = .grant →
        exec .transmitStart s = .next (finish s
          (modVeh v (fun r => { r with hoist := r.hoist.map (fun h => { h with sentOnce := true }) })
            { s with tsl := { s.tsl with
              hoistQueue := q, mark := .hoist, tx := some { vehicle := v, frame := .hoist e, noWait := false } } }))))

/-- GRANT_SENT, STAND_SENT and HOIST_SENT: the frame leaves with its address, kind, length and check; a GRANT becomes
the last authority sent with its limit and time, a STAND the last authority sent; a HOIST counts as a send and starts
the reply wait, and its cycle, QUEUED or AWAITING, is AWAITING with the time of its first send kept; sent in another phase than
QUEUED, it leaves a send without an answer BUSY, and the all-busy mark is cleared (log 16); one whose cycle has
ended is counted without a reply wait, or, with a new cycle under way, not at all: the model's choice (log 53). -/
def Obligations.ASentFrameIsRecorded : Prop :=
  ∀ (v : Nat) (f : OutFrame) (noWait : Bool) (s : State), Quiet s →
    s.tsl.tx = some { vehicle := v, frame := f, noWait := noWait } →
    let l := linkAt s v
    let left (l1 : Link) : State := { s with
      out := s.out ++ [.frame (outBytes v f)], tsl := { s.tsl with tx := none, links := tset {} s.tsl.links v l1 } }
    (∀ path limit, f = .grant path limit →
      exec .grantSent s = .next (finish s (left { l with
        lastSent := .grant, sentLimit := some limit, grantTime := some s.clock }))) ∧
    (f = .stand → exec .standSent s = .next (finish s (left { l with lastSent := .stand }))) ∧
    (∀ e, f = .hoist e →
      (noWait = true → (veh s v).hoist = none → exec .hoistSent s = .next (finish s (left { l with sends := l.sends + 1 }))) ∧
      (noWait = true → (veh s v).hoist ≠ none → exec .hoistSent s = .next (finish s { s with
        out := s.out ++ [.frame (outBytes v f)], tsl := { s.tsl with tx := none } })) ∧
      (noWait = false → exec .hoistSent s = .next (finish s
        (modVeh v (fun r => { r with hoist := r.hoist.map (fun h =>
            if h.phase = .queued ∨ h.phase = .awaiting then
              { h with phase := .awaiting, firstSend := some (h.firstSend.getD s.clock),
                       allBusy := h.allBusy && decide (h.phase = .queued) }
            else { h with allBusy := false }) })
          (left { l with sends := l.sends + 1, replyWait := some s.clock })))))

/-! ### Block control and arbitration -/

/-- A request for a zone, as an extension attempt makes it: a zone that is not OPEN or has a holder, and a PLAIN one
whose bay is full, take the vehicle as their last waiter; a free PLAIN zone whose bay has room, or already has the
vehicle, is granted. A grant makes the vehicle the holder, extends its path inside the zone, queues a GRANT and goes on
with the attempt. A path extended inside a zone towards a target keeps what it was and holds at most 32 segments; every
segment added lies in the zone and is the next segment from the node before it: of a node on the loop of the target's bay its
loop-next segment, of another that of its route entry for that bay (however long the whole walk: the model's choice, log 51).
The path goes on until it is at the target, has 32 segments, or has no next segment, or one outside the zone. A released zone has no holder; a CLOSING one becomes
CLOSED, its closing order COMPLETED; an OPEN one has its waiters served; a bay whose occupancy fell has its waits
re-examined. A zone the vehicle does not hold stays as it is. -/
def Obligations.ZonesAreRequestedGrantedAndReleased : Prop :=
  (∀ (v z : Nat) (e : ZoneEntry) (s : State), Sound s → zoneAt s z = some e →
     let r := zoneRec s z
     let room : Bool := holdsBay s v e.bay || decide (occupancy s e.bay < capacityOf s e.bay)
     let waits : State := { s with zones := tset {} s.zones z { r with
       waiters := r.waiters ++ [{ vehicle := v, since := s.clock, stalled := false }] } }
     (r.live ≠ .opened ∨ r.holder.isSome = true ∨ (e.kind ≠ 2 ∧ room = false) →
       request v z s = match r.holder with
         | some h => if nudgeable (veh s h) then push [.nudge h] waits else waits
         | none => waits) ∧
     (r.live = .opened → r.holder = none → e.kind ≠ 2 → room = true → r.waiters = [] →
       ∀ m g, limitOf s (veh s v) = some m → (veh s v).target = some g →
         request v z s =
           let held : State := { s with zones := tset {} s.zones z { r with holder := some v } }
           push [.attempt v] (queueGrant v
             (putVeh v { veh s v with path := extendPath s g z 32 m (veh s v).path } held)))) ∧
  (∀ (s : State) (g z m : Nat) (p : List Nat), p.length ≤ 32 →
     let next (n : Nat) : Option Nat := if n = g then none else (homeBay s g).bind (fun b =>
       if homeBay s n = some b then (nodeAt s n).map (fun e => e.loopNext) else (routeAt s n b).map (fun e => e.next))
     ∃ q, extendPath s g z 32 m p = p ++ q ∧ (p ++ q).length ≤ 32 ∧ (∀ k ∈ q, segZone s k = some z) ∧
       (∀ i < q.length, ∃ n, (if i = 0 then some m else segTo s (q.getD (i - 1) 0)) = some n ∧ next n = q[i]?) ∧
       (∀ k ∈ q.dropLast, segTo s k ≠ some g) ∧ (m = g → q = []) ∧
       ((p ++ q).length < 32 → ∃ n, (match q.getLast? with
         | some k => segTo s k
         | none => some m) = some n ∧ ∀ k, next n = some k → segZone s k ≠ some z)) ∧
  (∀ (v z : Nat) (s : State),
     let r := zoneRec s z
     (r.holder ≠ some v → release v z s = s) ∧
     (r.holder = some v → ∀ b, zoneBay s z = some b →
       let free (live : ZoneLive) (closing : Option Nat) : State :=
         { s with zones := tset {} s.zones z { r with holder := none, live := live, closingOrder := closing } }
       let fell (t : State) : List Task := if occupancy t b < occupancy s b then [.reexamine b] else []
       (r.live = .opened →
         release v z s = push (.serve z false :: fell (free .opened r.closingOrder)) (free .opened r.closingOrder)) ∧
       (r.live = .closing →
         release v z s = push (fell (free .closed none)) (match r.closingOrder with
           | some k => endDirective k .completed none 0 0 (free .closed none)
           | none => free .closed none))))

/-- Waits and attempts, over every zone and vehicle. A request for a free MERGE zone: its claimants are the waiters and the
vehicle that meet the bay condition; with none the vehicle waits; the one awarded is granted the zone, and the requesting
vehicle, if it was not, waits. A grant to a vehicle that waits ends its wait, and the stall flag is that of the waits left. A
zone that is OPEN without a holder is served: a PLAIN one grants its first waiter if that meets the bay condition, a MERGE
one awards among the waiters that do, or is parked with none. A wait is revised: it is kept while the vehicle may extend and
its next segment lies in the zone; else it is withdrawn, the zone served if it still has waiters, and a new attempt made if
the vehicle may extend. An attempt makes a step only under the conditions of R121 with fewer than 32 segments in the path:
without a next segment it ends; in the vehicle's own zone at its limit the path is continued; another of its zones ends it;
any other zone is requested. The waits of a bay are re-examined in rising zone number. -/
def Obligations.WaitsAreServedRevisedAndAttempted : Prop :=
  (∀ (v z : Nat) (e : ZoneEntry) (s : State), zoneAt s z = some e → e.kind = 2 → (zoneRec s z).live = .opened →
     (zoneRec s z).holder = none →
     let meets (c : Nat) : Bool := holdsBay s c e.bay || decide (occupancy s e.bay < capacityOf s e.bay)
     let cs := ((zoneRec s z).waiters.map (fun w => w.vehicle) ++ [v]).filter meets
     let waits := (zoneRec s z).waiters.map (fun w => w.vehicle)
     (cs = [] → request v z s = appendWaiter v z s) ∧
     (∀ w s1, cs ≠ [] → award e.merge cs s = (some w, s1) →
       request v z s = if w = v then grant v z s1 else appendWaiter v z (grant w z s1)) ∧
     ∀ waiting : Bool, (waits = [] → waiting = true → serve z waiting s = s) ∧
       (waits ≠ [] ∨ waiting = false →
         (waits.filter meets = [] → serve z waiting s = parkMerge e.merge s) ∧
         ∀ w s1, waits.filter meets ≠ [] → award e.merge (waits.filter meets) s = (some w, s1) → serve z waiting s = grant w z s1)) ∧
  (∀ (v z : Nat) (s : State), Sound s → ∀ m g, limitOf s (veh s v) = some m → (veh s v).target = some g →
     let r := zoneRec s z
     let left := r.waiters.filter (fun w => !decide (w.vehicle = v))
     let held : State := { s with zones := tset {} s.zones z { r with
       holder := some v, waiters := left, stall := if left = r.waiters then r.stall else left.any (fun w => w.stalled) } }
     grant v z s = push [.attempt v] (queueGrant v
       (putVeh v { veh s v with path := extendPath held g z 32 m (veh s v).path } held))) ∧
  (∀ (z : Nat) (waiting : Bool) (e : ZoneEntry) (s : State), zoneAt s z = some e →
     let r := zoneRec s z
     (r.live ≠ .opened ∨ r.holder ≠ none → serve z waiting s = s) ∧
     (r.live = .opened → r.holder = none → e.kind ≠ 2 →
       (r.waiters = [] → serve z waiting s = s) ∧
       ∀ w ws, r.waiters = w :: ws → serve z waiting s =
         if holdsBay s w.vehicle e.bay = true ∨ occupancy s e.bay < capacityOf s e.bay then grant w.vehicle z s else s)) ∧
  (∀ (v : Nat) (s : State),
     let r := veh s v
     let extends_ : Prop := s.flt.phase = .operating ∧ r.target ≠ none ∧ limitOf s r ≠ r.target ∧ r.uncertain = false ∧ r.retiring = false
     let next : Option Nat := match limitOf s r, r.target with
       | some m, some g => nextSegment s m g
       | _, _ => none
     (waitingAt s v = none → revise v s = s) ∧
     (∀ z, waitingAt s v = some z →
       let w := zoneRec s z
       let left := w.waiters.filter (fun x => !decide (x.vehicle = v))
       let withdrawn : State := { s with zones := tset {} s.zones z { w with
         waiters := left, stall := if left = w.waiters then w.stall else left.any (fun x => x.stalled) } }
       (extends_ → next.bind (segZone s) = some z → revise v s = s) ∧
       (extends_ → next.bind (segZone s) ≠ some z → revise v s = push [.serve z true, .attempt v] withdrawn) ∧
       (¬ extends_ → revise v s = push [.serve z true] withdrawn)) ∧
     let steps : Prop := extends_ ∧ waitingAt s v = none ∧ r.path.length < 32 ∧
       ((zonesHeld s v).filter (fun z => !decide (r.pos.bind (fun p => segZone s p.segment) = some z))).length < s.map.globals.lookahead
     (¬ steps ∨ next.bind (segZone s) = none → attempt v s = s) ∧
     (steps → ∀ z, next.bind (segZone s) = some z →
       ((zoneRec s z).holder ≠ some v → attempt v s = request v z s) ∧
       ((zoneRec s z).holder = some v → (limitSegment r).bind (segZone s) ≠ some z → attempt v s = s) ∧
       ((zoneRec s z).holder = some v → (limitSegment r).bind (segZone s) = some z → Sound s → ∀ m g, limitOf s r = some m →
         r.target = some g →
         let p := extendPath s g z 32 m r.path
         attempt v s = push [.attempt v] (queueGrant v (putVeh v { r with path := p } s)) ∧ p ≠ r.path))) ∧
  (∀ (b : Nat) (s : State), Sound s → ∃ zs : List Nat, reexamine b s = push (zs.map (fun z => .serve z true)) s ∧
     zs.Pairwise (· < ·) ∧ ∀ z, z ∈ zs ↔ zoneBay s z = some b ∧ (zoneRec s z).live = .opened ∧ (zoneRec s z).holder = none ∧
       (zoneRec s z).waiters ≠ [])

/-- An award with one claimant goes to it. With one on each branch it goes to the one that alone is hot; else, the
convoy EXPIRED, to the branch other than the favour; else to the favoured branch. The favour becomes the winner's
branch; the convoy starts at an award to the other branch, or when it was INACTIVE, and is RUNNING, or EXPIRED with a
limit of 0. -/
def Obligations.AnAwardFollowsHotThenConvoyThenFavour : Prop :=
  ∀ (m c d : Nat) (a : Arbiter) (s : State), arbiterAt s m = some a →
    let after (w : Nat) : State :=
      let br := branchOf s m w
      let started : Arbiter := { a with favour := br, start := s.clock, convoy := if a.limit = 0 then .expired else .running }
      { s with arbiters := tset none s.arbiters m (some (
        if br ≠ a.favour ∨ a.convoy = .inactive then started else a)) }
    award m [c] s = (some c, after c) ∧
    (branchOf s m c = .a → branchOf s m d = .b →
      let w :=
        if hot s c = true ∧ hot s d = false then c
        else if hot s d = true ∧ hot s c = false then d
        else if (a.favour = .a ∧ a.convoy ≠ .expired) ∨ (a.favour = .b ∧ a.convoy = .expired) then c
        else d
      award m [c, d] s = (some w, after w) ∧ award m [d, c] s = (some w, after w))

/-! ### Scores, learning, racks -/

/-- Of the scored candidates of an evaluation the lowest score is best, then a direct candidate before a chain one, then
the lower vehicle number: a total order in which two different vehicles are never equal, so that some candidate is
better than every other, and only one is. -/
def Obligations.TheBestCandidateIsUnique : Prop :=
  (∀ a b : Best, better a b = true ↔
    a.score < b.score ∨ (a.score = b.score ∧ a.kind = .direct ∧ b.kind = .chain) ∨
      (a.score = b.score ∧ a.kind = b.kind ∧ a.vehicle < b.vehicle)) ∧
  (∀ a b : Best, a.vehicle ≠ b.vehicle → (better a b = true ↔ ¬ better b a = true)) ∧
  (∀ a b c : Best, better a b = true → better b c = true → better a c = true) ∧
  ∀ l : List Best, l ≠ [] → (l.map (fun x => x.vehicle)).Nodup →
    ∃ a ∈ l, (∀ b ∈ l, b ≠ a → better a b = true) ∧ ∀ c ∈ l, (∀ b ∈ l, b ≠ c → better c b = true) → c = a

/-- A measurement moves the learned time by an eighth of the difference, rounded to nearest with halves up, within the
floor and 65,535; from a learned time within them it stays within them; a measurement above it raises it by at most the
rounded eighth, and reaches 65,535 only from there; one below the floor never raises it. Repeated, one measurement
brings it into the band from t − 3 to t + 4, where it stays, or down to the floor. -/
def Obligations.LearningMovesAnEighth : Prop :=
  ∀ (old floor t : Nat), floor ≤ old → old ≤ 65535 → 1 ≤ floor →
    let step : Int := Int.fdiv ((t : Int) - old + 4) 8
    ((learn old floor t : Nat) : Int) = max (floor : Int) (min ((old : Int) + step) 65535) ∧
    floor ≤ learn old floor t ∧ learn old floor t ≤ 65535 ∧
    (old < t → (learn old floor t : Int) ≤ old + step) ∧
    (t ≤ 65535 → old < 65535 → learn old floor t < 65535) ∧
    (t ≤ old + 3 → old ≤ t + 4 → learn old floor t = old) ∧
    (old + 3 < t → t ≤ 65535 → old < learn old floor t) ∧ (t + 4 < old → learn old floor t < old ∨ old = floor) ∧
    (t < floor → learn old floor t ≤ old)

/-- A complete scan sets each shelf's raw reading, and its inferred state: a shelf read ABSENT is inferred EMPTY; one
read PRESENT is AMBIGUOUS if another row and another column of the rack make with it a rectangle of four shelves all
read PRESENT, else PRESENT. So the four corners of a rectangle read PRESENT are all AMBIGUOUS, and a rack of one row or
one column has none. -/
def Obligations.GhostInferenceFindsRectangles : Prop :=
  ∀ (e : BayEntry) (rows : Table (Option Nat)) (r c : Nat),
    let p := readPresent rows
    (∀ (v : Sense) (h : Shelf), (scannedShelf (p r c) v h).raw = some (if p r c = true then .present else .absent) ∧
      (scannedShelf (p r c) v h).inferred = some v) ∧
    (p r c = false → infer e rows r c = .empty) ∧
    (p r c = true →
      ((∃ r2 c2, r2 < e.rows ∧ c2 < e.cols ∧ r2 ≠ r ∧ c2 ≠ c ∧ p r c2 = true ∧ p r2 c2 = true ∧ p r2 c = true) →
        infer e rows r c = .ambiguous) ∧
      ((¬ ∃ r2 c2, r2 < e.rows ∧ c2 < e.cols ∧ r2 ≠ r ∧ c2 ≠ c ∧ p r c2 = true ∧ p r2 c2 = true ∧ p r2 c = true) →
        infer e rows r c = .present)) ∧
    (∀ r2 c2, r < e.rows → r2 < e.rows → c < e.cols → c2 < e.cols → r ≠ r2 → c ≠ c2 →
      p r c = true → p r c2 = true → p r2 c2 = true → p r2 c = true →
      infer e rows r c = .ambiguous ∧ infer e rows r c2 = .ambiguous ∧ infer e rows r2 c2 = .ambiguous ∧
        infer e rows r2 c = .ambiguous) ∧
    ((e.rows ≤ 1 ∧ r < e.rows) ∨ (e.cols ≤ 1 ∧ c < e.cols) → infer e rows r c ≠ .ambiguous)

/-- The drop choice of a bay is the choosable shelf of its rack with the lowest station number, and none only if no
shelf of the rack is choosable; a shelf is choosable when it is sensed EMPTY, FREE, without the placed mark, OPEN, and
no live order's destination. A reserved drop that must be chosen anew, unless the first HOIST of the UNLOAD was taken: the
shelf is freed and the bay's drop choice is reserved for the order; if the carrier is aboard its vehicle goes there, an order
PLACING being CARRYING again with its cycle ended; with no shelf choosable the order goes on without one, or, with the
carrier aboard, fails DEST_OCCUPIED with the vehicle HOLDING. That an order left without a shelf, the failing one too, has no
chosen shelf and SHELF_CHOSEN clear is the model's choice (log 24). -/
def Obligations.TheDropChoiceIsTheLowestShelf : Prop :=
  (∀ (s : State) (b : Nat),
    (∀ st, choosable s st = true ↔
      (shelfAt s st).sensed = some .empty ∧ (shelfAt s st).logical = .free ∧ (shelfAt s st).placed = false ∧
        stationClosed s st = false ∧ ∀ p ∈ moves s, destStation p.2 ≠ some st) ∧
    (∀ st, dropChoice s b = some st →
      st ∈ rackOf s b ∧ choosable s st = true ∧ ∀ u ∈ rackOf s b, choosable s u = true → st ≤ u) ∧
    (dropChoice s b = none → ∀ st ∈ rackOf s b, choosable s st = false) ∧
    (∀ k o st, orderAt s k = some o → o.dest = .buffer b → dropChoice s b = some st →
      let t := reserveDrop k st s
      (shelfAt t st).logical = .reservedDrop ∧ (shelfAt t st).reserving = some k ∧
        ∃ o1, orderAt t k = some o1 ∧ o1.chosen = some st ∧ o1.shelfChosen = true ∧ destStation o1 = some st) ∧
    (∀ st, pickReady s st = true ↔ (shelfAt s st).logical = .free ∧
      ((shelfAt s st).sensed = some .present ∨ ((shelfAt s st).sensed = some .ambiguous ∧ (shelfAt s st).placed = true)))) ∧
  ∀ (st k : Nat) (o : OrderRec) (e : StationEntry) (s : State), Sound s → (shelfAt s st).logical = .reservedDrop →
    (shelfAt s st).reserving = some k → orderAt s k = some o → stationAt s st = some e →
    let freed : State := putShelf st { shelfAt s st with logical := .free, reserving := none } s
    let cycle : Option HoistCycle := o.vehicle.bind (fun v => (veh s v).hoist)
    let kept : Prop := o.state = .placing ∧ cycle.any (fun h => h.sentOnce || !decide (h.phase = .queued)) = true
    (kept → rechoose st s = s) ∧
    (¬ kept → ∀ o1, orderAt freed k = some o1 →
      (∀ n, dropChoice freed e.bay = some n →
        let t := reserveDrop k n freed
        (o.state ≠ .carrying → o.state ≠ .placing → rechoose st s = t) ∧
        ∀ v g, o.vehicle = some v → stationNode s n = some g →
          (o.state = .carrying → rechoose st s = setTarget v g t) ∧
          (o.state = .placing → rechoose st s = setTarget v g (modOrder k (fun r => { r with state := .carrying }) (endCycle v t)))) ∧
      (dropChoice freed e.bay = none →
        let bare : State := { freed with orders := tset none freed.orders k (some (.move { o1 with chosen := none, shelfChosen := false })) }
        (o.state ≠ .carrying → o.state ≠ .placing → rechoose st s = bare) ∧
        ∀ v, o.vehicle = some v → o.state = .carrying ∨ o.state = .placing →
          rechoose st s = toHolding v (endCycle v (rependChained v (failMove k .destOccupied .vehicle bare)))))
end

