-- ==== Sys2Proof/Laws/Tables.lean ====
section
/-! SUPPORT. Laws of tables and of host memory: every write keeps the canonical form, a read after a write, and what a
write leaves alone. -/

namespace Sys2Proof.Machine

variable {α : Type}

/-! ### Tables -/

@[simp] theorem tget_nil (d : α) (i : Nat) : tget d [] i = d := rfl

theorem tget_cons (d : α) (k : Nat) (v : α) (t : Table α) (i : Nat) :
    tget d ((k, v) :: t) i = if k = i then v else tget d t i := rfl

theorem tableAbove_iff (n : Nat) (t : Table α) : tableAbove n t = true ↔ ∀ p ∈ t, n < p.1 := by
  induction t with
  | nil => simp [tableAbove]
  | cons p t ih => cases p; simp [tableAbove, ih]

theorem tget_of_above (d : α) {n i : Nat} {t : Table α} (h : tableAbove n t = true) (hi : i ≤ n) : tget d t i = d := by
  induction t with
  | nil => rfl
  | cons p t ih =>
    obtain ⟨k, v⟩ := p
    simp only [tableAbove, Bool.and_eq_true, decide_eq_true_eq] at h
    rw [tget_cons, if_neg (by omega), ih h.2]

variable [DecidableEq α]

theorem tget_tset_other (d : α) (t : Table α) {i j : Nat} (v : α) (h : j ≠ i) :
    tget d (tset d t i v) j = tget d t j := by
  induction t with
  | nil => simp only [tset]; split <;> simp [tget, Ne.symm h]
  | cons p t ih =>
    obtain ⟨k, w⟩ := p
    simp only [tset]
    split
    · split <;> simp [tget, Ne.symm h]
    · split
      · subst i; split <;> simp [tget, Ne.symm h]
      · simp [tget, ih]

theorem tget_tset_of_ne (d : α) (t : Table α) (i : Nat) {v : α} (h : v ≠ d) : tget d (tset d t i v) i = v := by
  induction t with
  | nil => simp [tset, h, tget]
  | cons p t ih =>
    obtain ⟨k, w⟩ := p
    simp only [tset]
    split
    · simp [tget]
    · split
      · simp [tget]
      · rw [tget_cons, if_neg (by omega), ih]

theorem tget_tset_same (d : α) {t : Table α} (i : Nat) (v : α) (h : tableWf d t = true) :
    tget d (tset d t i v) i = v := by
  by_cases hv : v = d
  · subst hv
    induction t with
    | nil => simp [tset]
    | cons p t ih =>
      obtain ⟨k, w⟩ := p
      simp only [tableWf, Bool.and_eq_true] at h
      simp only [tset]
      split
      · rename_i hlt
        simp only [if_pos]
        rw [tget_cons, if_neg (by omega)]
        exact tget_of_above _ h.1.1 (by omega)
      · split
        · subst i; simpa using tget_of_above _ h.1.1 (Nat.le_refl _)
        · rw [tget_cons, if_neg (by omega), ih h.2]
  · exact tget_tset_of_ne d t i hv

theorem tset_above (d : α) {n i : Nat} {t : Table α} (v : α) (h : tableAbove n t = true) (hi : n < i) :
    tableAbove n (tset d t i v) = true := by
  induction t with
  | nil => simp only [tset]; split <;> simp [tableAbove, hi]
  | cons p t ih =>
    obtain ⟨k, w⟩ := p
    simp only [tableAbove, Bool.and_eq_true, decide_eq_true_eq] at h
    simp only [tset]
    split
    · split <;> simp [tableAbove, h, hi]
    · split
      · split <;> simp [tableAbove, h, hi]
      · simp [tableAbove, h, ih h.2]

/-- Every write of a table entry keeps the canonical form. -/
theorem tset_wf (d : α) {t : Table α} (i : Nat) (v : α) (h : tableWf d t = true) : tableWf d (tset d t i v) = true := by
  induction t with
  | nil => simp only [tset]; split <;> simp_all [tableWf, tableAbove]
  | cons p t ih =>
    obtain ⟨k, w⟩ := p
    simp only [tableWf, Bool.and_eq_true] at h
    simp only [tset]
    split
    · split
      · simp [tableWf, h]
      · rename_i hlt hv
        have ha : tableAbove i t = true := by
          rw [tableAbove_iff] at *
          intro p hp
          exact Nat.lt_trans hlt (h.1.1 p hp)
        simp_all [tableWf, tableAbove]
    · split
      · subst i; split
        · exact h.2
        · simp_all [tableWf]
      · simp [tableWf, h.1.2, ih h.2, tset_above d v h.1.1 (show k < i by omega)]

omit [DecidableEq α] in
/-- A table reads as its empty form at an index it does not list. -/
theorem tget_of_not_mem (d : α) {t : Table α} {i : Nat} (h : i ∉ tkeys t) : tget d t i = d := by
  induction t with
  | nil => rfl
  | cons p t ih =>
    obtain ⟨k, w⟩ := p
    simp only [tkeys, List.map_cons, List.mem_cons, not_or] at h
    rw [tget_cons, if_neg (Ne.symm h.1)]
    exact ih h.2

/-! ### Host memory -/

theorem writeByte_wf {m : Memory} (a : Nat) (b : Byte) (h : memoryWf m = true) : memoryWf (writeByte m a b) = true :=
  tset_wf _ _ _ h

theorem writeBytes_wf {m : Memory} (a : Nat) (bs : List Byte) (h : memoryWf m = true) :
    memoryWf (writeBytes m a bs) = true := by
  induction bs generalizing m a with
  | nil => exact h
  | cons b bs ih => exact ih _ (writeByte_wf a b h)

/-- Every write of a record's parts keeps host memory in its canonical form. -/
theorem writeParts_wf {m : Memory} (ps : List (Nat × List Byte)) (h : memoryWf m = true) :
    memoryWf (writeParts m ps) = true := by
  induction ps generalizing m with
  | nil => exact h
  | cons p ps ih => exact ih (writeBytes_wf p.1 p.2 h)

theorem reset_memoryWf : memoryWf State.reset.window = true := rfl

theorem readByte_writeByte_same {m : Memory} (a : Nat) (b : Byte) (h : memoryWf m = true) :
    readByte (writeByte m a b) a = b :=
  tget_tset_same _ _ _ h

theorem readByte_writeByte_other (m : Memory) {a x : Nat} (b : Byte) (h : x ≠ a) :
    readByte (writeByte m a b) x = readByte m x :=
  tget_tset_other _ _ _ h

end Sys2Proof.Machine
end

