-- ==== Sys2Proof/Laws/State.lean ====
section
/-! SUPPORT. What each named update of `State` leaves in each field. -/

namespace Sys2Proof.Machine

variable (s : State)

/-! ### push -/

@[simp] theorem push_pending (ts : List Task) : (push ts s).pending = s.pending := rfl
@[simp] theorem push_clock (ts : List Task) : (push ts s).clock = s.clock := rfl
@[simp] theorem push_agenda (ts : List Task) : (push ts s).agenda = s.agenda ++ ts := rfl
@[simp] theorem push_out (ts : List Task) : (push ts s).out = s.out := rfl
@[simp] theorem push_freeIndex (ts : List Task) : (push ts s).freeIndex = s.freeIndex := rfl
@[simp] theorem push_window (ts : List Task) : (push ts s).window = s.window := rfl
@[simp] theorem push_win (ts : List Task) : (push ts s).win = s.win := rfl
@[simp] theorem push_ink (ts : List Task) : (push ts s).ink = s.ink := rfl
@[simp] theorem push_map (ts : List Task) : (push ts s).map = s.map := rfl
@[simp] theorem push_times (ts : List Task) : (push ts s).times = s.times := rfl
@[simp] theorem push_orders (ts : List Task) : (push ts s).orders = s.orders := rfl
@[simp] theorem push_dsp (ts : List Task) : (push ts s).dsp = s.dsp := rfl
@[simp] theorem push_flt (ts : List Task) : (push ts s).flt = s.flt := rfl
@[simp] theorem push_zones (ts : List Task) : (push ts s).zones = s.zones := rfl
@[simp] theorem push_arbiters (ts : List Task) : (push ts s).arbiters = s.arbiters := rfl
@[simp] theorem push_tsl (ts : List Task) : (push ts s).tsl = s.tsl := rfl
@[simp] theorem push_buf (ts : List Task) : (push ts s).buf = s.buf := rfl

/-! ### putLive -/

@[simp] theorem putLive_pending (k : Nat) (l : Option Live) : (putLive k l s).pending = s.pending := rfl
@[simp] theorem putLive_clock (k : Nat) (l : Option Live) : (putLive k l s).clock = s.clock := rfl
@[simp] theorem putLive_agenda (k : Nat) (l : Option Live) : (putLive k l s).agenda = s.agenda := rfl
@[simp] theorem putLive_out (k : Nat) (l : Option Live) : (putLive k l s).out = s.out := rfl
@[simp] theorem putLive_freeIndex (k : Nat) (l : Option Live) : (putLive k l s).freeIndex = s.freeIndex := rfl
@[simp] theorem putLive_window (k : Nat) (l : Option Live) : (putLive k l s).window = s.window := rfl
@[simp] theorem putLive_win (k : Nat) (l : Option Live) : (putLive k l s).win = s.win := rfl
@[simp] theorem putLive_ink (k : Nat) (l : Option Live) : (putLive k l s).ink = s.ink := rfl
@[simp] theorem putLive_map (k : Nat) (l : Option Live) : (putLive k l s).map = s.map := rfl
@[simp] theorem putLive_times (k : Nat) (l : Option Live) : (putLive k l s).times = s.times := rfl
@[simp] theorem putLive_orders (k : Nat) (l : Option Live) : (putLive k l s).orders = tset none s.orders k l := rfl
@[simp] theorem putLive_dsp (k : Nat) (l : Option Live) : (putLive k l s).dsp = s.dsp := rfl
@[simp] theorem putLive_flt (k : Nat) (l : Option Live) : (putLive k l s).flt = s.flt := rfl
@[simp] theorem putLive_zones (k : Nat) (l : Option Live) : (putLive k l s).zones = s.zones := rfl
@[simp] theorem putLive_arbiters (k : Nat) (l : Option Live) : (putLive k l s).arbiters = s.arbiters := rfl
@[simp] theorem putLive_tsl (k : Nat) (l : Option Live) : (putLive k l s).tsl = s.tsl := rfl
@[simp] theorem putLive_buf (k : Nat) (l : Option Live) : (putLive k l s).buf = s.buf := rfl

/-! ### putOrder -/

@[simp] theorem putOrder_pending (k : Nat) (r : OrderRec) : (putOrder k r s).pending = s.pending := rfl
@[simp] theorem putOrder_clock (k : Nat) (r : OrderRec) : (putOrder k r s).clock = s.clock := rfl
@[simp] theorem putOrder_agenda (k : Nat) (r : OrderRec) : (putOrder k r s).agenda = s.agenda := rfl
@[simp] theorem putOrder_out (k : Nat) (r : OrderRec) : (putOrder k r s).out = s.out := rfl
@[simp] theorem putOrder_freeIndex (k : Nat) (r : OrderRec) : (putOrder k r s).freeIndex = s.freeIndex := rfl
@[simp] theorem putOrder_window (k : Nat) (r : OrderRec) : (putOrder k r s).window = s.window := rfl
@[simp] theorem putOrder_win (k : Nat) (r : OrderRec) : (putOrder k r s).win = s.win := rfl
@[simp] theorem putOrder_ink (k : Nat) (r : OrderRec) : (putOrder k r s).ink = s.ink := rfl
@[simp] theorem putOrder_map (k : Nat) (r : OrderRec) : (putOrder k r s).map = s.map := rfl
@[simp] theorem putOrder_times (k : Nat) (r : OrderRec) : (putOrder k r s).times = s.times := rfl
@[simp] theorem putOrder_orders (k : Nat) (r : OrderRec) : (putOrder k r s).orders = tset none s.orders k (some (.move r)) := rfl
@[simp] theorem putOrder_dsp (k : Nat) (r : OrderRec) : (putOrder k r s).dsp = s.dsp := rfl
@[simp] theorem putOrder_flt (k : Nat) (r : OrderRec) : (putOrder k r s).flt = s.flt := rfl
@[simp] theorem putOrder_zones (k : Nat) (r : OrderRec) : (putOrder k r s).zones = s.zones := rfl
@[simp] theorem putOrder_arbiters (k : Nat) (r : OrderRec) : (putOrder k r s).arbiters = s.arbiters := rfl
@[simp] theorem putOrder_tsl (k : Nat) (r : OrderRec) : (putOrder k r s).tsl = s.tsl := rfl
@[simp] theorem putOrder_buf (k : Nat) (r : OrderRec) : (putOrder k r s).buf = s.buf := rfl

/-! ### putZone -/

@[simp] theorem putZone_pending (z : Nat) (r : ZoneRec) : (putZone z r s).pending = s.pending := rfl
@[simp] theorem putZone_clock (z : Nat) (r : ZoneRec) : (putZone z r s).clock = s.clock := rfl
@[simp] theorem putZone_agenda (z : Nat) (r : ZoneRec) : (putZone z r s).agenda = s.agenda := rfl
@[simp] theorem putZone_out (z : Nat) (r : ZoneRec) : (putZone z r s).out = s.out := rfl
@[simp] theorem putZone_freeIndex (z : Nat) (r : ZoneRec) : (putZone z r s).freeIndex = s.freeIndex := rfl
@[simp] theorem putZone_window (z : Nat) (r : ZoneRec) : (putZone z r s).window = s.window := rfl
@[simp] theorem putZone_win (z : Nat) (r : ZoneRec) : (putZone z r s).win = s.win := rfl
@[simp] theorem putZone_ink (z : Nat) (r : ZoneRec) : (putZone z r s).ink = s.ink := rfl
@[simp] theorem putZone_map (z : Nat) (r : ZoneRec) : (putZone z r s).map = s.map := rfl
@[simp] theorem putZone_times (z : Nat) (r : ZoneRec) : (putZone z r s).times = s.times := rfl
@[simp] theorem putZone_orders (z : Nat) (r : ZoneRec) : (putZone z r s).orders = s.orders := rfl
@[simp] theorem putZone_dsp (z : Nat) (r : ZoneRec) : (putZone z r s).dsp = s.dsp := rfl
@[simp] theorem putZone_flt (z : Nat) (r : ZoneRec) : (putZone z r s).flt = s.flt := rfl
@[simp] theorem putZone_zones (z : Nat) (r : ZoneRec) : (putZone z r s).zones = tset {} s.zones z r := rfl
@[simp] theorem putZone_arbiters (z : Nat) (r : ZoneRec) : (putZone z r s).arbiters = s.arbiters := rfl
@[simp] theorem putZone_tsl (z : Nat) (r : ZoneRec) : (putZone z r s).tsl = s.tsl := rfl
@[simp] theorem putZone_buf (z : Nat) (r : ZoneRec) : (putZone z r s).buf = s.buf := rfl

/-! ### putRack -/

@[simp] theorem putRack_pending (b : Nat) (r : Rack) : (putRack b r s).pending = s.pending := rfl
@[simp] theorem putRack_clock (b : Nat) (r : Rack) : (putRack b r s).clock = s.clock := rfl
@[simp] theorem putRack_agenda (b : Nat) (r : Rack) : (putRack b r s).agenda = s.agenda := rfl
@[simp] theorem putRack_out (b : Nat) (r : Rack) : (putRack b r s).out = s.out := rfl
@[simp] theorem putRack_freeIndex (b : Nat) (r : Rack) : (putRack b r s).freeIndex = s.freeIndex := rfl
@[simp] theorem putRack_window (b : Nat) (r : Rack) : (putRack b r s).window = s.window := rfl
@[simp] theorem putRack_win (b : Nat) (r : Rack) : (putRack b r s).win = s.win := rfl
@[simp] theorem putRack_ink (b : Nat) (r : Rack) : (putRack b r s).ink = s.ink := rfl
@[simp] theorem putRack_map (b : Nat) (r : Rack) : (putRack b r s).map = s.map := rfl
@[simp] theorem putRack_times (b : Nat) (r : Rack) : (putRack b r s).times = s.times := rfl
@[simp] theorem putRack_orders (b : Nat) (r : Rack) : (putRack b r s).orders = s.orders := rfl
@[simp] theorem putRack_dsp (b : Nat) (r : Rack) : (putRack b r s).dsp = s.dsp := rfl
@[simp] theorem putRack_flt (b : Nat) (r : Rack) : (putRack b r s).flt = s.flt := rfl
@[simp] theorem putRack_zones (b : Nat) (r : Rack) : (putRack b r s).zones = s.zones := rfl
@[simp] theorem putRack_arbiters (b : Nat) (r : Rack) : (putRack b r s).arbiters = s.arbiters := rfl
@[simp] theorem putRack_tsl (b : Nat) (r : Rack) : (putRack b r s).tsl = s.tsl := rfl
@[simp] theorem putRack_buf (b : Nat) (r : Rack) : (putRack b r s).buf = { s.buf with racks := tset {} s.buf.racks b r } := rfl

/-! ### putLink -/

@[simp] theorem putLink_pending (v : Nat) (l : Link) : (putLink v l s).pending = s.pending := rfl
@[simp] theorem putLink_clock (v : Nat) (l : Link) : (putLink v l s).clock = s.clock := rfl
@[simp] theorem putLink_agenda (v : Nat) (l : Link) : (putLink v l s).agenda = s.agenda := rfl
@[simp] theorem putLink_out (v : Nat) (l : Link) : (putLink v l s).out = s.out := rfl
@[simp] theorem putLink_freeIndex (v : Nat) (l : Link) : (putLink v l s).freeIndex = s.freeIndex := rfl
@[simp] theorem putLink_window (v : Nat) (l : Link) : (putLink v l s).window = s.window := rfl
@[simp] theorem putLink_win (v : Nat) (l : Link) : (putLink v l s).win = s.win := rfl
@[simp] theorem putLink_ink (v : Nat) (l : Link) : (putLink v l s).ink = s.ink := rfl
@[simp] theorem putLink_map (v : Nat) (l : Link) : (putLink v l s).map = s.map := rfl
@[simp] theorem putLink_times (v : Nat) (l : Link) : (putLink v l s).times = s.times := rfl
@[simp] theorem putLink_orders (v : Nat) (l : Link) : (putLink v l s).orders = s.orders := rfl
@[simp] theorem putLink_dsp (v : Nat) (l : Link) : (putLink v l s).dsp = s.dsp := rfl
@[simp] theorem putLink_flt (v : Nat) (l : Link) : (putLink v l s).flt = s.flt := rfl
@[simp] theorem putLink_zones (v : Nat) (l : Link) : (putLink v l s).zones = s.zones := rfl
@[simp] theorem putLink_arbiters (v : Nat) (l : Link) : (putLink v l s).arbiters = s.arbiters := rfl
@[simp] theorem putLink_tsl (v : Nat) (l : Link) : (putLink v l s).tsl = { s.tsl with links := tset {} s.tsl.links v l } := rfl
@[simp] theorem putLink_buf (v : Nat) (l : Link) : (putLink v l s).buf = s.buf := rfl

/-! ### putArbiter -/

@[simp] theorem putArbiter_pending (m : Nat) (a : Option Arbiter) : (putArbiter m a s).pending = s.pending := rfl
@[simp] theorem putArbiter_clock (m : Nat) (a : Option Arbiter) : (putArbiter m a s).clock = s.clock := rfl
@[simp] theorem putArbiter_agenda (m : Nat) (a : Option Arbiter) : (putArbiter m a s).agenda = s.agenda := rfl
@[simp] theorem putArbiter_out (m : Nat) (a : Option Arbiter) : (putArbiter m a s).out = s.out := rfl
@[simp] theorem putArbiter_freeIndex (m : Nat) (a : Option Arbiter) : (putArbiter m a s).freeIndex = s.freeIndex := rfl
@[simp] theorem putArbiter_window (m : Nat) (a : Option Arbiter) : (putArbiter m a s).window = s.window := rfl
@[simp] theorem putArbiter_win (m : Nat) (a : Option Arbiter) : (putArbiter m a s).win = s.win := rfl
@[simp] theorem putArbiter_ink (m : Nat) (a : Option Arbiter) : (putArbiter m a s).ink = s.ink := rfl
@[simp] theorem putArbiter_map (m : Nat) (a : Option Arbiter) : (putArbiter m a s).map = s.map := rfl
@[simp] theorem putArbiter_times (m : Nat) (a : Option Arbiter) : (putArbiter m a s).times = s.times := rfl
@[simp] theorem putArbiter_orders (m : Nat) (a : Option Arbiter) : (putArbiter m a s).orders = s.orders := rfl
@[simp] theorem putArbiter_dsp (m : Nat) (a : Option Arbiter) : (putArbiter m a s).dsp = s.dsp := rfl
@[simp] theorem putArbiter_flt (m : Nat) (a : Option Arbiter) : (putArbiter m a s).flt = s.flt := rfl
@[simp] theorem putArbiter_zones (m : Nat) (a : Option Arbiter) : (putArbiter m a s).zones = s.zones := rfl
@[simp] theorem putArbiter_arbiters (m : Nat) (a : Option Arbiter) : (putArbiter m a s).arbiters = tset none s.arbiters m a := rfl
@[simp] theorem putArbiter_tsl (m : Nat) (a : Option Arbiter) : (putArbiter m a s).tsl = s.tsl := rfl
@[simp] theorem putArbiter_buf (m : Nat) (a : Option Arbiter) : (putArbiter m a s).buf = s.buf := rfl

/-! ### putSlotDue -/

@[simp] theorem putSlotDue_pending (k : Nat) (d : SlotDue) : (putSlotDue k d s).pending = s.pending := rfl
@[simp] theorem putSlotDue_clock (k : Nat) (d : SlotDue) : (putSlotDue k d s).clock = s.clock := rfl
@[simp] theorem putSlotDue_agenda (k : Nat) (d : SlotDue) : (putSlotDue k d s).agenda = s.agenda := rfl
@[simp] theorem putSlotDue_out (k : Nat) (d : SlotDue) : (putSlotDue k d s).out = s.out := rfl
@[simp] theorem putSlotDue_freeIndex (k : Nat) (d : SlotDue) : (putSlotDue k d s).freeIndex = s.freeIndex := rfl
@[simp] theorem putSlotDue_window (k : Nat) (d : SlotDue) : (putSlotDue k d s).window = s.window := rfl
@[simp] theorem putSlotDue_win (k : Nat) (d : SlotDue) : (putSlotDue k d s).win = { s.win with slotDue := tset {} s.win.slotDue k d } := rfl
@[simp] theorem putSlotDue_ink (k : Nat) (d : SlotDue) : (putSlotDue k d s).ink = s.ink := rfl
@[simp] theorem putSlotDue_map (k : Nat) (d : SlotDue) : (putSlotDue k d s).map = s.map := rfl
@[simp] theorem putSlotDue_times (k : Nat) (d : SlotDue) : (putSlotDue k d s).times = s.times := rfl
@[simp] theorem putSlotDue_orders (k : Nat) (d : SlotDue) : (putSlotDue k d s).orders = s.orders := rfl
@[simp] theorem putSlotDue_dsp (k : Nat) (d : SlotDue) : (putSlotDue k d s).dsp = s.dsp := rfl
@[simp] theorem putSlotDue_flt (k : Nat) (d : SlotDue) : (putSlotDue k d s).flt = s.flt := rfl
@[simp] theorem putSlotDue_zones (k : Nat) (d : SlotDue) : (putSlotDue k d s).zones = s.zones := rfl
@[simp] theorem putSlotDue_arbiters (k : Nat) (d : SlotDue) : (putSlotDue k d s).arbiters = s.arbiters := rfl
@[simp] theorem putSlotDue_tsl (k : Nat) (d : SlotDue) : (putSlotDue k d s).tsl = s.tsl := rfl
@[simp] theorem putSlotDue_buf (k : Nat) (d : SlotDue) : (putSlotDue k d s).buf = s.buf := rfl

/-! ### setRun -/

@[simp] theorem setRun_pending (r : MapRun) : (setRun r s).pending = s.pending := rfl
@[simp] theorem setRun_clock (r : MapRun) : (setRun r s).clock = s.clock := rfl
@[simp] theorem setRun_agenda (r : MapRun) : (setRun r s).agenda = s.agenda := rfl
@[simp] theorem setRun_out (r : MapRun) : (setRun r s).out = s.out := rfl
@[simp] theorem setRun_freeIndex (r : MapRun) : (setRun r s).freeIndex = s.freeIndex := rfl
@[simp] theorem setRun_window (r : MapRun) : (setRun r s).window = s.window := rfl
@[simp] theorem setRun_win (r : MapRun) : (setRun r s).win = s.win := rfl
@[simp] theorem setRun_ink (r : MapRun) : (setRun r s).ink = s.ink := rfl
@[simp] theorem setRun_map (r : MapRun) : (setRun r s).map = { s.map with run := r } := rfl
@[simp] theorem setRun_times (r : MapRun) : (setRun r s).times = s.times := rfl
@[simp] theorem setRun_orders (r : MapRun) : (setRun r s).orders = s.orders := rfl
@[simp] theorem setRun_dsp (r : MapRun) : (setRun r s).dsp = s.dsp := rfl
@[simp] theorem setRun_flt (r : MapRun) : (setRun r s).flt = s.flt := rfl
@[simp] theorem setRun_zones (r : MapRun) : (setRun r s).zones = s.zones := rfl
@[simp] theorem setRun_arbiters (r : MapRun) : (setRun r s).arbiters = s.arbiters := rfl
@[simp] theorem setRun_tsl (r : MapRun) : (setRun r s).tsl = s.tsl := rfl
@[simp] theorem setRun_buf (r : MapRun) : (setRun r s).buf = s.buf := rfl

/-! ### countTaking -/

@[simp] theorem countTaking_pending : (countTaking s).pending = s.pending := rfl
@[simp] theorem countTaking_clock : (countTaking s).clock = s.clock := rfl
@[simp] theorem countTaking_agenda : (countTaking s).agenda = s.agenda := rfl
@[simp] theorem countTaking_out : (countTaking s).out = s.out := rfl
@[simp] theorem countTaking_freeIndex : (countTaking s).freeIndex = s.freeIndex := rfl
@[simp] theorem countTaking_window : (countTaking s).window = s.window := rfl
@[simp] theorem countTaking_win : (countTaking s).win = s.win := rfl
@[simp] theorem countTaking_ink : (countTaking s).ink = { s.ink with seq := s.ink.seq + 1 } := rfl
@[simp] theorem countTaking_map : (countTaking s).map = s.map := rfl
@[simp] theorem countTaking_times : (countTaking s).times = s.times := rfl
@[simp] theorem countTaking_orders : (countTaking s).orders = s.orders := rfl
@[simp] theorem countTaking_dsp : (countTaking s).dsp = s.dsp := rfl
@[simp] theorem countTaking_flt : (countTaking s).flt = s.flt := rfl
@[simp] theorem countTaking_zones : (countTaking s).zones = s.zones := rfl
@[simp] theorem countTaking_arbiters : (countTaking s).arbiters = s.arbiters := rfl
@[simp] theorem countTaking_tsl : (countTaking s).tsl = s.tsl := rfl
@[simp] theorem countTaking_buf : (countTaking s).buf = s.buf := rfl

/-! ### clearStale -/

@[simp] theorem clearStale_pending : (clearStale s).pending = s.pending := rfl
@[simp] theorem clearStale_clock : (clearStale s).clock = s.clock := rfl
@[simp] theorem clearStale_agenda : (clearStale s).agenda = s.agenda := rfl
@[simp] theorem clearStale_out : (clearStale s).out = s.out := rfl
@[simp] theorem clearStale_freeIndex : (clearStale s).freeIndex = s.freeIndex := rfl
@[simp] theorem clearStale_window : (clearStale s).window = s.window := rfl
@[simp] theorem clearStale_win : (clearStale s).win = s.win := rfl
@[simp] theorem clearStale_ink : (clearStale s).ink = s.ink := rfl
@[simp] theorem clearStale_map : (clearStale s).map = s.map := rfl
@[simp] theorem clearStale_times : (clearStale s).times = s.times := rfl
@[simp] theorem clearStale_dsp : (clearStale s).dsp = s.dsp := rfl
@[simp] theorem clearStale_flt : (clearStale s).flt = s.flt := rfl
@[simp] theorem clearStale_zones : (clearStale s).zones = s.zones := rfl
@[simp] theorem clearStale_arbiters : (clearStale s).arbiters = s.arbiters := rfl
@[simp] theorem clearStale_tsl : (clearStale s).tsl = s.tsl := rfl
@[simp] theorem clearStale_buf : (clearStale s).buf = s.buf := rfl

/-! ### availability -/

@[simp] theorem availability_pending : (availability s).pending = s.pending := rfl
@[simp] theorem availability_clock : (availability s).clock = s.clock := rfl
@[simp] theorem availability_agenda : (availability s).agenda = s.agenda := rfl
@[simp] theorem availability_out : (availability s).out = s.out := rfl
@[simp] theorem availability_freeIndex : (availability s).freeIndex = s.freeIndex := rfl
@[simp] theorem availability_window : (availability s).window = s.window := rfl
@[simp] theorem availability_win : (availability s).win = s.win := rfl
@[simp] theorem availability_ink : (availability s).ink = s.ink := rfl
@[simp] theorem availability_map : (availability s).map = s.map := rfl
@[simp] theorem availability_times : (availability s).times = s.times := rfl
@[simp] theorem availability_dsp : (availability s).dsp = { s.dsp with changeSeen := s.dsp.changeSeen || s.dsp.evaluating } := rfl
@[simp] theorem availability_flt : (availability s).flt = s.flt := rfl
@[simp] theorem availability_zones : (availability s).zones = s.zones := rfl
@[simp] theorem availability_arbiters : (availability s).arbiters = s.arbiters := rfl
@[simp] theorem availability_tsl : (availability s).tsl = s.tsl := rfl
@[simp] theorem availability_buf : (availability s).buf = s.buf := rfl

/-! ### putVeh -/

@[simp] theorem putVeh_pending (v : Nat) (r : Vehicle) : (putVeh v r s).pending = s.pending := by unfold putVeh; dsimp only; (repeat' split) <;> rfl
@[simp] theorem putVeh_clock (v : Nat) (r : Vehicle) : (putVeh v r s).clock = s.clock := by unfold putVeh; dsimp only; (repeat' split) <;> rfl
@[simp] theorem putVeh_agenda (v : Nat) (r : Vehicle) : (putVeh v r s).agenda = s.agenda := by unfold putVeh; dsimp only; (repeat' split) <;> rfl
@[simp] theorem putVeh_out (v : Nat) (r : Vehicle) : (putVeh v r s).out = s.out := by unfold putVeh; dsimp only; (repeat' split) <;> rfl
@[simp] theorem putVeh_freeIndex (v : Nat) (r : Vehicle) : (putVeh v r s).freeIndex = s.freeIndex := by unfold putVeh; dsimp only; (repeat' split) <;> rfl
@[simp] theorem putVeh_window (v : Nat) (r : Vehicle) : (putVeh v r s).window = s.window := by unfold putVeh; dsimp only; (repeat' split) <;> rfl
@[simp] theorem putVeh_win (v : Nat) (r : Vehicle) : (putVeh v r s).win = s.win := by unfold putVeh; dsimp only; (repeat' split) <;> rfl
@[simp] theorem putVeh_ink (v : Nat) (r : Vehicle) : (putVeh v r s).ink = s.ink := by unfold putVeh; dsimp only; (repeat' split) <;> rfl
@[simp] theorem putVeh_map (v : Nat) (r : Vehicle) : (putVeh v r s).map = s.map := by unfold putVeh; dsimp only; (repeat' split) <;> rfl
@[simp] theorem putVeh_times (v : Nat) (r : Vehicle) : (putVeh v r s).times = s.times := by unfold putVeh; dsimp only; (repeat' split) <;> rfl
@[simp] theorem putVeh_flt (v : Nat) (r : Vehicle) : (putVeh v r s).flt = { s.flt with vehicles := tset {} s.flt.vehicles v r } := by unfold putVeh; dsimp only; (repeat' split) <;> rfl
@[simp] theorem putVeh_zones (v : Nat) (r : Vehicle) : (putVeh v r s).zones = s.zones := by unfold putVeh; dsimp only; (repeat' split) <;> rfl
@[simp] theorem putVeh_arbiters (v : Nat) (r : Vehicle) : (putVeh v r s).arbiters = s.arbiters := by unfold putVeh; dsimp only; (repeat' split) <;> rfl
@[simp] theorem putVeh_tsl (v : Nat) (r : Vehicle) : (putVeh v r s).tsl = s.tsl := by unfold putVeh; dsimp only; (repeat' split) <;> rfl
@[simp] theorem putVeh_buf (v : Nat) (r : Vehicle) : (putVeh v r s).buf = s.buf := by unfold putVeh; dsimp only; (repeat' split) <;> rfl

/-! ### putShelf -/

@[simp] theorem putShelf_pending (st : Nat) (h : Shelf) : (putShelf st h s).pending = s.pending := by unfold putShelf; dsimp only; split <;> rfl
@[simp] theorem putShelf_clock (st : Nat) (h : Shelf) : (putShelf st h s).clock = s.clock := by unfold putShelf; dsimp only; split <;> rfl
@[simp] theorem putShelf_agenda (st : Nat) (h : Shelf) : (putShelf st h s).agenda = s.agenda := by unfold putShelf; dsimp only; split <;> rfl
@[simp] theorem putShelf_out (st : Nat) (h : Shelf) : (putShelf st h s).out = s.out := by unfold putShelf; dsimp only; split <;> rfl
@[simp] theorem putShelf_freeIndex (st : Nat) (h : Shelf) : (putShelf st h s).freeIndex = s.freeIndex := by unfold putShelf; dsimp only; split <;> rfl
@[simp] theorem putShelf_window (st : Nat) (h : Shelf) : (putShelf st h s).window = s.window := by unfold putShelf; dsimp only; split <;> rfl
@[simp] theorem putShelf_win (st : Nat) (h : Shelf) : (putShelf st h s).win = s.win := by unfold putShelf; dsimp only; split <;> rfl
@[simp] theorem putShelf_ink (st : Nat) (h : Shelf) : (putShelf st h s).ink = s.ink := by unfold putShelf; dsimp only; split <;> rfl
@[simp] theorem putShelf_map (st : Nat) (h : Shelf) : (putShelf st h s).map = s.map := by unfold putShelf; dsimp only; split <;> rfl
@[simp] theorem putShelf_times (st : Nat) (h : Shelf) : (putShelf st h s).times = s.times := by unfold putShelf; dsimp only; split <;> rfl
@[simp] theorem putShelf_flt (st : Nat) (h : Shelf) : (putShelf st h s).flt = s.flt := by unfold putShelf; dsimp only; split <;> rfl
@[simp] theorem putShelf_zones (st : Nat) (h : Shelf) : (putShelf st h s).zones = s.zones := by unfold putShelf; dsimp only; split <;> rfl
@[simp] theorem putShelf_arbiters (st : Nat) (h : Shelf) : (putShelf st h s).arbiters = s.arbiters := by unfold putShelf; dsimp only; split <;> rfl
@[simp] theorem putShelf_tsl (st : Nat) (h : Shelf) : (putShelf st h s).tsl = s.tsl := by unfold putShelf; dsimp only; split <;> rfl
@[simp] theorem putShelf_buf (st : Nat) (h : Shelf) : (putShelf st h s).buf = { s.buf with shelves := tset {} s.buf.shelves st h } := by unfold putShelf; dsimp only; split <;> rfl

/-! ### queueGrant -/

@[simp] theorem queueGrant_pending (v : Nat) : (queueGrant v s).pending = s.pending := by unfold queueGrant; split <;> rfl
@[simp] theorem queueGrant_clock (v : Nat) : (queueGrant v s).clock = s.clock := by unfold queueGrant; split <;> rfl
@[simp] theorem queueGrant_agenda (v : Nat) : (queueGrant v s).agenda = s.agenda := by unfold queueGrant; split <;> rfl
@[simp] theorem queueGrant_out (v : Nat) : (queueGrant v s).out = s.out := by unfold queueGrant; split <;> rfl
@[simp] theorem queueGrant_freeIndex (v : Nat) : (queueGrant v s).freeIndex = s.freeIndex := by unfold queueGrant; split <;> rfl
@[simp] theorem queueGrant_window (v : Nat) : (queueGrant v s).window = s.window := by unfold queueGrant; split <;> rfl
@[simp] theorem queueGrant_win (v : Nat) : (queueGrant v s).win = s.win := by unfold queueGrant; split <;> rfl
@[simp] theorem queueGrant_ink (v : Nat) : (queueGrant v s).ink = s.ink := by unfold queueGrant; split <;> rfl
@[simp] theorem queueGrant_map (v : Nat) : (queueGrant v s).map = s.map := by unfold queueGrant; split <;> rfl
@[simp] theorem queueGrant_times (v : Nat) : (queueGrant v s).times = s.times := by unfold queueGrant; split <;> rfl
@[simp] theorem queueGrant_orders (v : Nat) : (queueGrant v s).orders = s.orders := by unfold queueGrant; split <;> rfl
@[simp] theorem queueGrant_dsp (v : Nat) : (queueGrant v s).dsp = s.dsp := by unfold queueGrant; split <;> rfl
@[simp] theorem queueGrant_flt (v : Nat) : (queueGrant v s).flt = s.flt := by unfold queueGrant; split <;> rfl
@[simp] theorem queueGrant_zones (v : Nat) : (queueGrant v s).zones = s.zones := by unfold queueGrant; split <;> rfl
@[simp] theorem queueGrant_arbiters (v : Nat) : (queueGrant v s).arbiters = s.arbiters := by unfold queueGrant; split <;> rfl
@[simp] theorem queueGrant_buf (v : Nat) : (queueGrant v s).buf = s.buf := by unfold queueGrant; split <;> rfl

/-! ### queueStand -/

@[simp] theorem queueStand_pending (v : Nat) : (queueStand v s).pending = s.pending := by unfold queueStand; split <;> rfl
@[simp] theorem queueStand_clock (v : Nat) : (queueStand v s).clock = s.clock := by unfold queueStand; split <;> rfl
@[simp] theorem queueStand_agenda (v : Nat) : (queueStand v s).agenda = s.agenda := by unfold queueStand; split <;> rfl
@[simp] theorem queueStand_out (v : Nat) : (queueStand v s).out = s.out := by unfold queueStand; split <;> rfl
@[simp] theorem queueStand_freeIndex (v : Nat) : (queueStand v s).freeIndex = s.freeIndex := by unfold queueStand; split <;> rfl
@[simp] theorem queueStand_window (v : Nat) : (queueStand v s).window = s.window := by unfold queueStand; split <;> rfl
@[simp] theorem queueStand_win (v : Nat) : (queueStand v s).win = s.win := by unfold queueStand; split <;> rfl
@[simp] theorem queueStand_ink (v : Nat) : (queueStand v s).ink = s.ink := by unfold queueStand; split <;> rfl
@[simp] theorem queueStand_map (v : Nat) : (queueStand v s).map = s.map := by unfold queueStand; split <;> rfl
@[simp] theorem queueStand_times (v : Nat) : (queueStand v s).times = s.times := by unfold queueStand; split <;> rfl
@[simp] theorem queueStand_orders (v : Nat) : (queueStand v s).orders = s.orders := by unfold queueStand; split <;> rfl
@[simp] theorem queueStand_dsp (v : Nat) : (queueStand v s).dsp = s.dsp := by unfold queueStand; split <;> rfl
@[simp] theorem queueStand_flt (v : Nat) : (queueStand v s).flt = s.flt := by unfold queueStand; split <;> rfl
@[simp] theorem queueStand_zones (v : Nat) : (queueStand v s).zones = s.zones := by unfold queueStand; split <;> rfl
@[simp] theorem queueStand_arbiters (v : Nat) : (queueStand v s).arbiters = s.arbiters := by unfold queueStand; split <;> rfl
@[simp] theorem queueStand_buf (v : Nat) : (queueStand v s).buf = s.buf := by unfold queueStand; split <;> rfl

/-! ### queueHoist -/

@[simp] theorem queueHoist_pending (v : Nat) : (queueHoist v s).pending = s.pending := by unfold queueHoist; (repeat' split) <;> rfl
@[simp] theorem queueHoist_clock (v : Nat) : (queueHoist v s).clock = s.clock := by unfold queueHoist; (repeat' split) <;> rfl
@[simp] theorem queueHoist_agenda (v : Nat) : (queueHoist v s).agenda = s.agenda := by unfold queueHoist; (repeat' split) <;> rfl
@[simp] theorem queueHoist_out (v : Nat) : (queueHoist v s).out = s.out := by unfold queueHoist; (repeat' split) <;> rfl
@[simp] theorem queueHoist_freeIndex (v : Nat) : (queueHoist v s).freeIndex = s.freeIndex := by unfold queueHoist; (repeat' split) <;> rfl
@[simp] theorem queueHoist_window (v : Nat) : (queueHoist v s).window = s.window := by unfold queueHoist; (repeat' split) <;> rfl
@[simp] theorem queueHoist_win (v : Nat) : (queueHoist v s).win = s.win := by unfold queueHoist; (repeat' split) <;> rfl
@[simp] theorem queueHoist_ink (v : Nat) : (queueHoist v s).ink = s.ink := by unfold queueHoist; (repeat' split) <;> rfl
@[simp] theorem queueHoist_map (v : Nat) : (queueHoist v s).map = s.map := by unfold queueHoist; (repeat' split) <;> rfl
@[simp] theorem queueHoist_times (v : Nat) : (queueHoist v s).times = s.times := by unfold queueHoist; (repeat' split) <;> rfl
@[simp] theorem queueHoist_orders (v : Nat) : (queueHoist v s).orders = s.orders := by unfold queueHoist; (repeat' split) <;> rfl
@[simp] theorem queueHoist_dsp (v : Nat) : (queueHoist v s).dsp = s.dsp := by unfold queueHoist; (repeat' split) <;> rfl
@[simp] theorem queueHoist_flt (v : Nat) : (queueHoist v s).flt = s.flt := by unfold queueHoist; (repeat' split) <;> rfl
@[simp] theorem queueHoist_zones (v : Nat) : (queueHoist v s).zones = s.zones := by unfold queueHoist; (repeat' split) <;> rfl
@[simp] theorem queueHoist_arbiters (v : Nat) : (queueHoist v s).arbiters = s.arbiters := by unfold queueHoist; (repeat' split) <;> rfl
@[simp] theorem queueHoist_buf (v : Nat) : (queueHoist v s).buf = s.buf := by unfold queueHoist; (repeat' split) <;> rfl

/-! ### Reads after an update -/

@[simp] theorem linkAt_putLink_other {v w : Nat} (l : Link) (h : w ≠ v) : linkAt (putLink v l s) w = linkAt s w :=
  tget_tset_other _ _ _ h
@[simp] theorem zoneRec_putZone_other {z y : Nat} (r : ZoneRec) (h : y ≠ z) : zoneRec (putZone z r s) y = zoneRec s y :=
  tget_tset_other _ _ _ h
@[simp] theorem rackAt_putRack_other {b c : Nat} (r : Rack) (h : c ≠ b) : rackAt (putRack b r s) c = rackAt s c :=
  tget_tset_other _ _ _ h
@[simp] theorem liveAt_putLive_other {k j : Nat} (l : Option Live) (h : j ≠ k) : liveAt (putLive k l s) j = liveAt s j :=
  tget_tset_other _ _ _ h
@[simp] theorem liveAt_putOrder (k : Nat) (r : OrderRec) : liveAt (putOrder k r s) k = some (.move r) :=
  tget_tset_of_ne _ _ _ (by simp)
@[simp] theorem orderAt_putOrder (k : Nat) (r : OrderRec) : orderAt (putOrder k r s) k = some r := by
  unfold orderAt; rw [liveAt_putOrder]
@[simp] theorem arbiterAt_putArbiter (m : Nat) (a : Arbiter) : arbiterAt (putArbiter m (some a) s) m = some a :=
  tget_tset_of_ne _ _ _ (by simp)
@[simp] theorem arbiterAt_putArbiter_other {m n : Nat} (a : Option Arbiter) (h : n ≠ m) :
    arbiterAt (putArbiter m a s) n = arbiterAt s n :=
  tget_tset_other _ _ _ h
@[simp] theorem slotDueAt_putSlotDue_other {k j : Nat} (d : SlotDue) (h : j ≠ k) :
    slotDueAt (putSlotDue k d s) j = slotDueAt s j :=
  tget_tset_other _ _ _ h
theorem slotDueAt_putSlotDue (k : Nat) {d : SlotDue} (h : d ≠ {}) : slotDueAt (putSlotDue k d s) k = d :=
  tget_tset_of_ne _ _ _ h
/-- Reading a vehicle's record after writing it; a record in its empty form reads so in a canonical table. -/
theorem veh_putVeh (v : Nat) {r : Vehicle} (h : r ≠ {}) : veh (putVeh v r s) v = r := by
  unfold veh; rw [putVeh_flt]; exact tget_tset_of_ne _ _ _ h
@[simp] theorem veh_putVeh_other {v w : Nat} (r : Vehicle) (h : w ≠ v) : veh (putVeh v r s) w = veh s w := by
  unfold veh; rw [putVeh_flt]; exact tget_tset_other _ _ _ h
theorem shelfAt_putShelf (st : Nat) {h : Shelf} (hh : h ≠ {}) : shelfAt (putShelf st h s) st = h := by
  unfold shelfAt; rw [putShelf_buf]; exact tget_tset_of_ne _ _ _ hh
@[simp] theorem shelfAt_putShelf_other {st u : Nat} (h : Shelf) (hu : u ≠ st) : shelfAt (putShelf st h s) u = shelfAt s u := by
  unfold shelfAt; rw [putShelf_buf]; exact tget_tset_other _ _ _ hu

end Sys2Proof.Machine
end

