-- ==== Sys2Proof/Laws/Events.lean ====
section
/-! SUPPORT. Laws of an event: the cascade with and without tasks, and what the writes that fall due leave alone. -/

namespace Sys2Proof.Machine

/-! ### The cascade -/

/-- With nothing asked for, the cascade does nothing. -/
theorem cascade_quiet (n : Nat) {s : State} (h : s.agenda = []) : cascade n s = s := by
  cases n with
  | zero => rfl
  | succ n => simp [cascade, h]

/-- One task of the cascade. -/
theorem cascade_cons (n : Nat) {s : State} {t : Task} {rest : List Task} (h : s.agenda = t :: rest) :
    cascade (n + 1) s =
      cascade n { runTask t { s with agenda := [] } with agenda := (runTask t { s with agenda := [] }).agenda ++ rest } := by
  rw [cascade, h]

/-- With nothing asked for, the cascade changes nothing. -/
theorem cascadeDues_quiet (n : Nat) {s : State} (h : s.agenda = []) : cascadeDues n s = [] := by
  cases n with
  | zero => rfl
  | succ n => simp [cascadeDues, h]

/-- What one task and those after it have changed. -/
theorem cascadeDues_cons (n : Nat) {s : State} {t : Task} {rest : List Task} (h : s.agenda = t :: rest) :
    cascadeDues (n + 1) s =
      joinDues (dues { s with agenda := [] } (runTask t { s with agenda := [] }))
        (cascadeDues n { runTask t { s with agenda := [] } with agenda := (runTask t { s with agenda := [] }).agenda ++ rest }) := by
  rw [cascadeDues, h]

@[simp] theorem joinDues_nil (l : List (WinRec × Causes)) : joinDues l [] = l := rfl

theorem event_settle (f : State → State) (s : State) : event f s = .next (settle s (f s)) := rfl

/-- An event that asks the blocks for nothing is one act. -/
theorem settle_quiet {s b : State} (h : b.agenda = []) : settle s b = finish s b := by
  rw [settle, cascade_quiet _ h, cascadeDues_quiet _ h, joinDues_nil, finish]

theorem event_quiet {f : State → State} {s : State} (h : (f s).agenda = []) : event f s = .next (finish s (f s)) := by
  rw [event, settle_quiet h]

/-- Outside RUNNING no write falls due. -/
theorem finishWith_stopped (ds : List (WinRec × Causes)) {a b : State} (h : b.win.engine ≠ .running) : finishWith ds a b = b := by
  simp [finishWith, h]

theorem finish_stopped {a b : State} (h : b.win.engine ≠ .running) : finish a b = b := finishWith_stopped _ h

end Sys2Proof.Machine
end

