-- ==== Sys2Proof/Laws/Quiet.lean ====
section
/-! SUPPORT. The operations that ask the blocks for nothing: each leaves the agenda as it was. -/

namespace Sys2Proof.Machine

variable (s : State)

@[simp] theorem modVeh_agenda (v : Nat) (f : Vehicle → Vehicle) : (modVeh v f s).agenda = s.agenda := by simp [modVeh]
@[simp] theorem modLink_agenda (v : Nat) (f : Link → Link) : (modLink v f s).agenda = s.agenda := by simp [modLink]
@[simp] theorem modOrder_agenda (k : Nat) (f : OrderRec → OrderRec) : (modOrder k f s).agenda = s.agenda := by
  unfold modOrder; split <;> simp
@[simp] theorem evaluationEnds_agenda : (evaluationEnds s).agenda = s.agenda := by
  unfold evaluationEnds; dsimp only; split <;> rfl
@[simp] theorem raiseCause_agenda (c : Cause) : (raiseCause c s).agenda = s.agenda := by
  unfold raiseCause; dsimp only; (repeat' split) <;> rfl
@[simp] theorem raiseCauses_agenda (cs : Causes) : (raiseCauses cs s).agenda = s.agenda := by
  unfold raiseCauses
  induction allCauses generalizing s with
  | nil => rfl
  | cons c l ih => rw [List.foldl_cons, ih]; split <;> simp
@[simp] theorem logError_agenda (kind : LogKind) (detail : Nat) : (logError kind detail s).agenda = s.agenda := by
  unfold logError; dsimp only; (repeat' split) <;> simp
@[simp] theorem logFault_agenda (cause off : Nat) : (logFault cause off s).agenda = s.agenda := by simp [logFault]
@[simp] theorem handHoist_agenda (v : Nat) (b : Bool) : (handHoist v b s).agenda = s.agenda := by simp [handHoist]
@[simp] theorem voidHoist_agenda (v : Nat) : (voidHoist v s).agenda = s.agenda := by
  unfold voidHoist; (repeat' split) <;> rfl
@[simp] theorem dropHoist_agenda (v : Nat) : (dropHoist v s).agenda = s.agenda := by simp [dropHoist]
@[simp] theorem endCycle_agenda (v : Nat) : (endCycle v s).agenda = s.agenda := by
  unfold endCycle; split <;> simp
@[simp] theorem clearLink_agenda (v : Nat) : (clearLink v s).agenda = s.agenda := by simp [clearLink]
@[simp] theorem restartSilence_agenda (v : Nat) : (restartSilence v s).agenda = s.agenda := by simp [restartSilence]
@[simp] theorem oweFinal_agenda (k : Nat) (f : Final) : (oweFinal k f s).agenda = s.agenda := rfl
@[simp] theorem oweTaken_agenda (k : Nat) : (oweTaken k s).agenda = s.agenda := rfl
@[simp] theorem endNow_agenda (t : Taking) (c : ResultCode) (r : Option Reason) (d f : Nat) :
    (endNow t c r d f s).agenda = s.agenda := rfl
@[simp] theorem completeNow_agenda (t : Taking) (f : Nat) : (completeNow t f s).agenda = s.agenda := rfl
@[simp] theorem refuseNow_agenda (t : Taking) (r : Reason) : (refuseNow t r s).agenda = s.agenda := rfl
@[simp] theorem keepDirective_agenda (t : Taking) (k : Nat) : (keepDirective t k s).agenda = s.agenda := rfl
@[simp] theorem endDirective_agenda (k : Nat) (c : ResultCode) (r : Option Reason) (d f : Nat) :
    (endDirective k c r d f s).agenda = s.agenda := by
  unfold endDirective; split <;> simp
@[simp] theorem freeShelves_agenda (k : Nat) : (freeShelves k s).agenda = s.agenda := by
  unfold freeShelves
  generalize ((s.buf.shelves.filter (fun p => decide (p.2.reserving = some k))).map (fun p => p.1)) = l
  induction l generalizing s with
  | nil => rfl
  | cons a l ih => rw [List.foldl_cons, ih]; simp
@[simp] theorem freePick_agenda (st : Nat) : (freePick st s).agenda = s.agenda := by
  unfold freePick; split <;> simp
@[simp] theorem unlinkOrder_agenda (k : Nat) (v : Option Nat) : (unlinkOrder k v s).agenda = s.agenda := by
  unfold unlinkOrder; dsimp only; (repeat' split) <;> simp
@[simp] theorem finishOrder_agenda (k : Nat) (c : ResultCode) (r : Option Reason) (p : Place) :
    (finishOrder k c r p s).agenda = s.agenda := by
  unfold finishOrder; dsimp only; (repeat' split) <;> simp
@[simp] theorem repend_agenda (k : Nat) : (repend k s).agenda = s.agenda := by
  unfold repend; dsimp only; split <;> simp
@[simp] theorem rependChained_agenda (v : Nat) : (rependChained v s).agenda = s.agenda := by
  unfold rependChained; split <;> simp
@[simp] theorem failMove_agenda (k : Nat) (r : Reason) (p : Place) : (failMove k r p s).agenda = s.agenda := by simp [failMove]
@[simp] theorem beginCycle_agenda (v : Nat) (k : HoistKind) (st : Nat) (c : Option (List Byte)) :
    (beginCycle v k st c s).agenda = s.agenda := by simp [beginCycle]
@[simp] theorem measure_agenda (k t : Nat) : (measure k t s).agenda = s.agenda := by
  unfold measure; (repeat' split) <;> rfl
@[simp] theorem parkMerge_agenda (m : Nat) : (parkMerge m s).agenda = s.agenda := by
  unfold parkMerge; split <;> simp
@[simp] theorem award_agenda (m : Nat) (cs : List Nat) : (award m cs s).2.agenda = s.agenda := by
  unfold award; (repeat' split) <;> simp
@[simp] theorem removeWait_agenda (v z : Nat) : (removeWait v z s).agenda = s.agenda := rfl
@[simp] theorem takeZone_agenda (v z : Nat) : (takeZone v z s).agenda = s.agenda := rfl
@[simp] theorem occupy_agenda (v z : Nat) : (occupy v z s).agenda = s.agenda := rfl
@[simp] theorem extendIn_agenda (v z : Nat) : (extendIn v z s).agenda = s.agenda := by
  unfold extendIn; dsimp only; split <;> simp
@[simp] theorem reserveDrop_agenda (k st : Nat) : (reserveDrop k st s).agenda = s.agenda := by simp [reserveDrop]
@[simp] theorem reservePick_agenda (k st : Nat) : (reservePick k st s).agenda = s.agenda := by simp [reservePick]
@[simp] theorem windowNotice_agenda (v : Nat) : (windowNotice v s).agenda = s.agenda := by
  unfold windowNotice; dsimp only; split <;> simp
@[simp] theorem putLane_agenda (h : Bool) (l : Lane) : (putLane h l s).agenda = s.agenda := rfl
@[simp] theorem consume_agenda (o : Origin) : (consume o s).agenda = s.agenda := by
  cases o <;> simp only [consume, consumeNotice, sweepDue, sweepOn] <;> (repeat' split) <;> rfl
@[simp] theorem setPlaced_agenda (st : Nat) (b : Bool) : (setPlaced st b s).agenda = s.agenda := by
  unfold setPlaced; split <;> simp
@[simp] theorem bumpRevision_agenda (r : WinRec) : (bumpRevision r s).agenda = s.agenda := by cases r <;> rfl
@[simp] theorem clearDue_agenda (r : WinRec) : (clearDue r s).agenda = s.agenda := by cases r <;> rfl
@[simp] theorem beginWrite_agenda (r : WinRec) (cs : Causes) : (beginWrite r cs s).agenda = s.agenda := by
  unfold beginWrite; dsimp only; (repeat' split) <;> simp
@[simp] theorem schedule_agenda (r : WinRec) (cs : Causes) : (schedule r cs s).agenda = s.agenda := by
  unfold schedule; (repeat' split) <;> simp
@[simp] theorem scheduleAll_agenda (l : List (WinRec × Causes)) : (scheduleAll l s).agenda = s.agenda := by
  unfold scheduleAll
  induction l generalizing s with
  | nil => rfl
  | cons p l ih => rw [List.foldl_cons, ih]; simp

end Sys2Proof.Machine
end

