-- ==== Sys2Proof/Laws/SoundRecords.lean ====
section
/-! SUPPORT. What every step keeps (`Sound`), operation by operation: the updates of records, causes, the error log and
the link's queues. Each operation takes a sound state to a sound one. -/

namespace Sys2Proof.Machine

variable {s : State}

/-! ### Updates that touch nothing `Sound` speaks of, and single fields -/

theorem Sound.orders_update (h : Sound s) {t : Table (Option Live)} (w : tableWf none t = true) :
    Sound { s with orders := t } := { h with orders := w }
theorem Sound.vehicles_update (h : Sound s) {t : Table Vehicle} (w : tableWf {} t = true) :
    Sound { s with flt := { s.flt with vehicles := t } } := { h with vehicles := w }
theorem Sound.zones_update (h : Sound s) {t : Table ZoneRec} (w : tableWf {} t = true) : Sound { s with zones := t } :=
  { h with zones := w }
theorem Sound.shelves_update (h : Sound s) {t : Table Shelf} (w : tableWf {} t = true) :
    Sound { s with buf := { s.buf with shelves := t } } := { h with shelves := w }
theorem Sound.links_update (h : Sound s) {t : Table Link} (w : tableWf {} t = true) :
    Sound { s with tsl := { s.tsl with links := t } } := { h with links := w }
theorem Sound.dsp_update (h : Sound s) (d : Dsp) : Sound { s with dsp := d } := { h with }
theorem Sound.map_update (h : Sound s) (m : MapStore) : Sound { s with map := m } := { h with }
theorem Sound.agenda_update (h : Sound s) (l : List Task) : Sound { s with agenda := l } := { h with }
theorem Sound.pending_update (h : Sound s) (l : List Instr) : Sound { s with pending := l } := { h with }
theorem Sound.clock_update (h : Sound s) (t : Time) : Sound { s with clock := t } := { h with }
theorem Sound.out_update (h : Sound s) (l : List Output) : Sound { s with out := l } := { h with }
theorem Sound.read_update (h : Sound s) (r : Option SlotRead) : Sound { s with ink := { s.ink with read := r } } := { h with }
theorem Sound.sweep_update (h : Sound s) (w : Option Sweep) : Sound { s with ink := { s.ink with sweep := w } } := { h with }

/-- A fold of operations each of which keeps `Sound` keeps it. -/
theorem Sound.foldl {α : Type} {f : State → α → State} (hf : ∀ t a, Sound t → Sound (f t a)) (l : List α) (h : Sound s) :
    Sound (l.foldl f s) := by
  induction l generalizing s with
  | nil => exact h
  | cons a l ih => exact ih (hf _ _ h)

theorem push_sound (ts : List Task) (h : Sound s) : Sound (push ts s) := h.agenda_update _
theorem putLive_sound (k : Nat) (l : Option Live) (h : Sound s) : Sound (putLive k l s) := h.orders_update (tset_wf _ _ _ h.orders)
theorem putOrder_sound (k : Nat) (r : OrderRec) (h : Sound s) : Sound (putOrder k r s) := putLive_sound _ _ h
theorem modOrder_sound (k : Nat) (f : OrderRec → OrderRec) (h : Sound s) : Sound (modOrder k f s) := by
  unfold modOrder; split
  · exact putOrder_sound _ _ h
  · exact h

theorem tableAbove_map {α β : Type} (n : Nat) (f : Nat × α → β) (t : Table α) :
    tableAbove n (t.map (fun p => (p.1, f p))) = tableAbove n t := by
  induction t with
  | nil => rfl
  | cons p t ih => simp [tableAbove, ih]
/-- A change of entries that leaves no entry empty keeps the canonical form. -/
theorem tableWf_map {α β : Type} [DecidableEq α] [DecidableEq β] (d : α) (e : β) (f : Nat × α → β) {t : Table α}
    (hf : ∀ p ∈ t, p.2 ≠ d → f p ≠ e) (h : tableWf d t = true) : tableWf e (t.map (fun p => (p.1, f p))) = true := by
  induction t with
  | nil => rfl
  | cons p t ih =>
    simp only [tableWf, Bool.and_eq_true, Bool.not_eq_true', decide_eq_false_iff_not, List.map_cons] at *
    refine ⟨⟨?_, hf p (by simp) h.1.2⟩, ih (fun q hq => hf q (by simp [hq])) h.2⟩
    rw [tableAbove_map]; exact h.1.1
theorem tableAbove_filterMap {α β : Type} (n : Nat) (f : Nat × α → Option (Nat × β)) (hk : ∀ p q, f p = some q → q.1 = p.1)
    {t : Table α} (h : tableAbove n t = true) : tableAbove n (t.filterMap f) = true := by
  rw [tableAbove_iff] at *
  intro q hq
  rw [List.mem_filterMap] at hq
  obtain ⟨p, hp, he⟩ := hq
  rw [hk p q he]
  exact h p hp
/-- A choice of entries, none of them empty, keeps the canonical form. -/
theorem tableWf_filterMap {α β : Type} [DecidableEq α] [DecidableEq β] (d : α) (e : β) (f : Nat × α → Option (Nat × β))
    (hk : ∀ p q, f p = some q → q.1 = p.1) (hf : ∀ p q, f p = some q → q.2 ≠ e) {t : Table α} (h : tableWf d t = true) :
    tableWf e (t.filterMap f) = true := by
  induction t with
  | nil => rfl
  | cons p t ih =>
    simp only [tableWf, Bool.and_eq_true, Bool.not_eq_true', decide_eq_false_iff_not] at h
    rw [List.filterMap_cons]
    split
    · exact ih h.2
    · rename_i q hq
      obtain ⟨k, v⟩ := q
      simp only [tableWf, Bool.and_eq_true, Bool.not_eq_true', decide_eq_false_iff_not]
      refine ⟨⟨?_, hf _ _ hq⟩, ih h.2⟩
      rw [show k = p.1 from hk _ _ hq]
      exact tableAbove_filterMap _ _ hk h.1.1

theorem clearStale_sound (h : Sound s) : Sound (clearStale s) := by
  refine h.orders_update (tableWf_map none none _ ?_ h.orders)
  intro p _ hp
  split
  · simp
  · exact hp
theorem availability_sound (h : Sound s) : Sound (availability s) := clearStale_sound (h.dsp_update _)
theorem putVeh_sound (v : Nat) (r : Vehicle) (h : Sound s) : Sound (putVeh v r s) := by
  have h1 : Sound { s with flt := { s.flt with vehicles := tset {} s.flt.vehicles v r } } := h.vehicles_update (tset_wf _ _ _ h.vehicles)
  unfold putVeh; dsimp only
  split
  · apply availability_sound
    split
    · exact h1.dsp_update _
    · exact h1
  · split
    · exact h1.dsp_update _
    · exact h1
theorem modVeh_sound (v : Nat) (f : Vehicle → Vehicle) (h : Sound s) : Sound (modVeh v f s) := putVeh_sound _ _ h
theorem putZone_sound (z : Nat) (r : ZoneRec) (h : Sound s) : Sound (putZone z r s) := h.zones_update (tset_wf _ _ _ h.zones)
theorem putShelf_sound (st : Nat) (x : Shelf) (h : Sound s) : Sound (putShelf st x s) := by
  have h1 : Sound { s with buf := { s.buf with shelves := tset {} s.buf.shelves st x } } := h.shelves_update (tset_wf _ _ _ h.shelves)
  unfold putShelf; dsimp only
  split
  · exact availability_sound h1
  · exact h1
theorem putRack_sound (b : Nat) (r : Rack) (h : Sound s) : Sound (putRack b r s) := { h with }
theorem putLink_sound (v : Nat) (l : Link) (h : Sound s) : Sound (putLink v l s) := h.links_update (tset_wf _ _ _ h.links)
theorem modLink_sound (v : Nat) (f : Link → Link) (h : Sound s) : Sound (modLink v f s) := putLink_sound _ _ h
theorem putArbiter_sound (m : Nat) (a : Option Arbiter) (h : Sound s) : Sound (putArbiter m a s) := { h with }
theorem putSlotDue_sound (k : Nat) (d : SlotDue) (h : Sound s) : Sound (putSlotDue k d s) := { h with }
theorem evaluationEnds_sound (h : Sound s) : Sound (evaluationEnds s) := by
  unfold evaluationEnds; dsimp only
  split
  · exact { h with }
  · exact { h with }

/-! ### Causes, the error log -/

theorem raiseCause_sound (c : Cause) (h : Sound s) : Sound (raiseCause c s) := by
  unfold raiseCause; dsimp only
  split
  · exact h
  · split <;> exact { h with }
theorem raiseCauses_sound (cs : Causes) (h : Sound s) : Sound (raiseCauses cs s) := by
  refine Sound.foldl (fun t c ht => ?_) _ h
  split
  · exact raiseCause_sound _ ht
  · exact ht
theorem logError_sound (k : LogKind) (d : Nat) (h : Sound s) : Sound (logError k d s) := by
  unfold logError; dsimp only
  split
  · exact { h with }
  · split
    · exact { h with }
    · exact raiseCause_sound _ { h with }
theorem logFault_sound (c o : Nat) (h : Sound s) : Sound (logFault c o s) := logError_sound _ _ h

/-! ### The link's queues -/

theorem queueGrant_sound (v : Nat) (h : Sound s) : Sound (queueGrant v s) := by
  unfold queueGrant; split
  · exact h
  · rename_i hn
    have hl : s.tsl.linkHold = false := by simp at hn; exact hn.1
    exact { h with held := fun x => absurd x (by simp [hl]) }
theorem queueStand_sound (v : Nat) (h : Sound s) : Sound (queueStand v s) := by
  unfold queueStand; split
  · exact h
  · rename_i hl
    exact { h with held := fun x => absurd x hl }
theorem queueHoist_sound (v : Nat) (h : Sound s) : Sound (queueHoist v s) := by
  unfold queueHoist; split
  · exact h
  · split
    · exact h
    · rename_i hl
      exact { h with held := fun x => absurd x hl }
theorem handHoist_sound (v : Nat) (b : Bool) (h : Sound s) : Sound (handHoist v b s) := queueHoist_sound _ (modLink_sound _ _ h)
theorem voidHoist_sound (v : Nat) (h : Sound s) : Sound (voidHoist v s) := by
  unfold voidHoist; split
  · split
    · split
      · refine { h with held := fun x => ?_ }
        have := (h.held x).2.2
        simp_all
      · exact h
    · exact h
  · exact h
/-- Entries leave the queues. -/
theorem dequeue_sound (v w : Nat) (h : Sound s) :
    Sound { s with tsl := { s.tsl with grantQueue := dequeue v s.tsl.grantQueue, hoistQueue := dequeue w s.tsl.hoistQueue } } :=
  { h with held := fun x => by obtain ⟨a, b, c⟩ := h.held x; simp [dequeue, a, b, c] }
theorem dequeueHoist_sound (v : Nat) (h : Sound s) :
    Sound { s with tsl := { s.tsl with hoistQueue := dequeue v s.tsl.hoistQueue } } :=
  { h with held := fun x => by obtain ⟨a, b, c⟩ := h.held x; simp [dequeue, a, b, c] }
theorem dropHoist_sound (v : Nat) (h : Sound s) : Sound (dropHoist v s) :=
  voidHoist_sound _ (modLink_sound _ _ (dequeueHoist_sound _ h))
theorem endCycle_sound (v : Nat) (h : Sound s) : Sound (endCycle v s) := by
  unfold endCycle; split
  · exact h
  · exact dropHoist_sound _ (modVeh_sound _ _ h)
theorem clearLink_sound (v : Nat) (h : Sound s) : Sound (clearLink v s) :=
  voidHoist_sound _ (putLink_sound _ _ (dequeue_sound _ _ h))
theorem restartSilence_sound (v : Nat) (h : Sound s) : Sound (restartSilence v s) := modLink_sound _ _ h

end Sys2Proof.Machine
end

