-- ==== Sys2Proof/Laws/SoundWindow.lean ====
section
/-! SUPPORT. `Sound` under the window writer, the registers and the lanes (10). -/

namespace Sys2Proof.Machine
variable {s : State}

/-! ### The writer -/

theorem bumpRevision_sound (r : WinRec) (h : Sound s) : Sound (bumpRevision r s) := by cases r <;> exact { h with }
theorem clearDue_sound (r : WinRec) (h : Sound s) : Sound (clearDue r s) := by
  cases r
  · exact putSlotDue_sound _ _ h
  all_goals exact { h with }
theorem beginWrite_sound (r : WinRec) (cs : Causes) (h : Sound s) : Sound (beginWrite r cs s) := by
  unfold beginWrite; dsimp only
  split
  · exact h
  · split
    · have := bumpRevision_sound r (clearDue_sound r h)
      exact { this with }
    · exact raiseCauses_sound _ (logFault_sound _ _ (clearDue_sound _ h))
theorem defer_keys (r : WinRec) (cs : Causes) (l : List (WinRec × Causes)) :
    (defer r cs l).map (fun p => p.1) = if r ∈ l.map (fun p => p.1) then l.map (fun p => p.1) else l.map (fun p => p.1) ++ [r] := by
  induction l with
  | nil => simp [defer]
  | cons p l ih =>
    obtain ⟨q, ds⟩ := p
    simp only [defer]
    split
    · subst q; simp
    · rename_i hq
      rw [List.map_cons, ih]
      simp only [List.map_cons, List.mem_cons]
      split <;> simp_all [Ne.symm hq]
theorem defer_nodup (r : WinRec) (cs : Causes) {l : List (WinRec × Causes)} (h : (l.map (fun p => p.1)).Nodup) :
    ((defer r cs l).map (fun p => p.1)).Nodup := by
  rw [defer_keys]
  split
  · exact h
  · rename_i hn
    rw [List.nodup_append]
    exact ⟨h, by simp, by intro a ha b hb; simp at hb; subst hb; exact fun e => hn (e ▸ ha)⟩
theorem schedule_sound (r : WinRec) (cs : Causes) (h : Sound s) : Sound (schedule r cs s) := by
  unfold schedule
  split
  · exact { h with deferred := defer_nodup _ _ h.deferred }
  · split
    · exact { h with }
    · exact beginWrite_sound _ _ h
theorem scheduleAll_sound (l : List (WinRec × Causes)) (h : Sound s) : Sound (scheduleAll l s) :=
  Sound.foldl (fun _ _ ht => schedule_sound _ _ ht) _ h
theorem settleLog_sound (n : Nat) (old : Option LogRecord) (h : Sound s) : Sound (settleLog n old s) := by
  induction n generalizing s old with
  | zero => exact h
  | succ n ih =>
    unfold settleLog; split
    · exact h
    · exact ih _ (schedule_sound _ _ { h with })
theorem fullWrite_sound (l : Layout) (h : Sound s) : Sound (fullWrite l s) := by
  unfold fullWrite; split
  · exact scheduleAll_sound _ h
  · exact { h with }
theorem scheduleDues_sound (ds : List (WinRec × Causes)) (a : State) (h : Sound s) : Sound (scheduleDues ds a s) := by
  have h1 := scheduleAll_sound (ds.filter (fun p => !decide (p.1 = .status))) h
  unfold scheduleDues; dsimp only
  refine settleLog_sound _ _ ?_
  split
  · exact schedule_sound _ _ h1
  · exact h1
theorem finishWith_sound (ds : List (WinRec × Causes)) (a : State) (h : Sound s) : Sound (finishWith ds a s) := by
  unfold finishWith; split
  · exact h
  · split
    · split
      · exact settleLog_sound _ _ (fullWrite_sound _ h)
      · exact h
    · exact scheduleDues_sound _ _ h
theorem finish_sound (a : State) (h : Sound s) : Sound (finish a s) := finishWith_sound _ _ h
theorem beginDeferred_sound (l : List (WinRec × Causes)) (hl : (l.map (fun p => p.1)).Nodup) (h : Sound s) :
    Sound (beginDeferred l s) := by
  induction l generalizing s with
  | nil => exact h
  | cons p l ih =>
    rw [List.map_cons, List.nodup_cons] at hl
    have h1 : Sound { s with win := { s.win with deferred := l } } := { h with deferred := hl.2 }
    unfold beginDeferred; dsimp only
    split
    · exact ih hl.2 { h1 with }
    · split
      · exact beginWrite_sound _ _ h1
      · exact ih hl.2 (beginWrite_sound _ _ h1)
theorem resumeDeferred_sound (h : Sound s) : Sound (resumeDeferred s) := by
  unfold resumeDeferred; split
  · exact h
  · exact beginDeferred_sound _ h.deferred h
theorem writeDone_sound (r : WinRec) (ok : Bool) (h : Sound s) : Sound (writeDone r ok s) := by
  unfold writeDone; split
  · exact h
  · rename_i j _
    have h1 : Sound { s with win := { s.win with jobs := s.win.jobs.filter (fun p => !decide (p.1 = r)) } } := { h with }
    have h2 : Sound (raiseCauses j.causes (if ok then
        { ({ s with win := { s.win with jobs := s.win.jobs.filter (fun p => !decide (p.1 = r)) } } : State) with
          window := writeParts s.window j.parts }
        else logFault 3 j.offset { s with win := { s.win with jobs := s.win.jobs.filter (fun p => !decide (p.1 = r)) } })) := by
      apply raiseCauses_sound; split
      · exact { h1 with memory := writeParts_wf _ h.memory }
      · exact logFault_sound _ _ h1
    dsimp only
    apply resumeDeferred_sound
    split
    · exact schedule_sound _ _ h2
    · exact h2

/-! ### Registers -/

theorem holdRead_sound (h : Sound s) : Sound (holdRead s) := { h with }
theorem holdClear_sound (h : Sound s) : Sound (holdClear s) := by
  unfold holdClear; split
  · exact resumeDeferred_sound { h with }
  · exact h
theorem causeClear_sound (w : BitVec 64) (h : Sound s) : Sound (causeClear w s) := { h with }
theorem enableWrite_sound (w : BitVec 64) (h : Sound s) : Sound (enableWrite w s) := { h with }
theorem layoutFails_sound (n : Nat) (hn : n ≤ 7) (h : Sound s) : Sound (layoutFails n s) := logError_sound _ _ { h with check := hn }
theorem startStrobe_sound (h : Sound s) : Sound (startStrobe s) := by
  unfold startStrobe; split
  · exact h
  · split
    · exact { h with }
    · refine layoutFails_sound _ ?_ h
      split <;> omega
theorem layoutCheckOf_le (size version : Nat) (l : Layout) : layoutCheckOf size version l ≤ 7 := by
  unfold layoutCheckOf; repeat' split
  all_goals omega
theorem headerDone_sound (r : ReadResult) (h : Sound s) : Sound (headerDone r s) := by
  unfold headerDone; split
  · exact h
  · split
    · exact layoutFails_sound _ (by omega) h
    · split
      · exact layoutFails_sound _ (by omega) h
      · split
        · exact layoutFails_sound _ (by omega) h
        · dsimp only
          split
          · exact layoutFails_sound _ (layoutCheckOf_le _ _ _) h
          · exact { h with check := Nat.zero_le _ }
theorem upperBits_getLsbD (w : BitVec 64) (i : Nat) : (upperBits w).getLsbD i = (decide (20 ≤ i) && w.getLsbD i) := by
  unfold upperBits
  rw [BitVec.getLsbD_shiftLeft, BitVec.getLsbD_ushiftRight]
  by_cases h : 20 ≤ i
  · rw [show 20 + (i - 20) = i by omega]
    by_cases h2 : i < 64
    · simp [h, h2]
    · simp [h2, BitVec.getLsbD_of_ge w i (by omega)]
  · simp [h]
theorem upperBits_idem (w : BitVec 64) : upperBits (upperBits w) = upperBits w := by
  apply BitVec.eq_of_getLsbD_eq; intro i hi
  rw [upperBits_getLsbD, upperBits_getLsbD]; cases decide (20 ≤ i) <;> rfl
theorem baseBits_idem (w : BitVec 64) (b : Bool) :
    upperBits (upperBits w ||| (if b then 1 else 0)) |||
      (if (upperBits w ||| (if b then 1 else 0)).getLsbD 0 then 1 else 0) =
    upperBits w ||| (if b then 1 else 0) := by
  have h0 : (upperBits w ||| (if b then 1 else 0)).getLsbD 0 = b := by
    rw [BitVec.getLsbD_or, upperBits_getLsbD]; cases b <;> simp
  rw [h0]
  apply BitVec.eq_of_getLsbD_eq; intro i hi
  rw [BitVec.getLsbD_or, BitVec.getLsbD_or, upperBits_getLsbD, BitVec.getLsbD_or, upperBits_getLsbD]
  by_cases h : 20 ≤ i
  · cases b <;> simp [h]
  · simp [h]
theorem Sound.base_update (h : Sound s) {b : BitVec 64} (hb : upperBits b ||| (if b.getLsbD 0 then 1 else 0) = b) : Sound { s with win := { s.win with windowBase := b } } :=
  { h with base := hb }
theorem Sound.mask_update (h : Sound s) {b : BitVec 64} (hb : upperBits b  = b) : Sound { s with win := { s.win with windowMask := b } } :=
  { h with mask := hb }
theorem writeBase_sound (w : BitVec 64) (h : Sound s) : Sound (writeBase w s) := h.base_update (baseBits_idem w _)
theorem writeMask_sound (w : BitVec 64) (h : Sound s) : Sound (writeMask w s) := h.mask_update (upperBits_idem w)

/-! ### Lanes -/

theorem putLane_sound {hot : Bool} {l : Lane} (hl : laneOk l) (h : Sound s) : Sound (putLane hot l s) := by
  unfold putLane; cases hot
  · exact { h with normal := hl }
  · exact { h with hot := hl }
theorem laneOf_ok (hot : Bool) (h : Sound s) : laneOk (laneOf hot s) := by
  cases hot
  · exact h.normal
  · exact h.hot
theorem noticeRuns_ok {k : Nat} {l : Lane} {rs : List Run} (hl : laneOk l) (h : noticeRuns k l.runs = some rs) :
    laneOk { l with runs := rs } := by
  unfold noticeRuns at h
  split at h
  · rename_i r hr
    have hm := List.mem_of_getLast? hr
    split at h
    · cases h
      rename_i hc
      refine ⟨?_, ?_⟩
      · have := hl.1; have : 0 < l.runs.length := List.length_pos_of_mem hm
        simp; omega
      · intro x hx
        simp only [List.mem_append, List.mem_singleton] at hx
        rcases hx with hx | rfl
        · exact hl.2 x (List.dropLast_subset _ hx)
        · have := hl.2 r hm; exact ⟨by dsimp only; omega, by dsimp only; omega⟩
    · split at h
      · cases h
        rename_i hc
        refine ⟨by simp [Config.runLimit] at *; omega, ?_⟩
        intro x hx
        simp only [List.mem_append, List.mem_singleton] at hx
        rcases hx with hx | rfl
        · exact hl.2 x hx
        · exact ⟨Nat.zero_lt_one, by show 1 ≤ 64; omega⟩
      · exact absurd h (by simp)
  · cases h
    exact ⟨by show 1 ≤ 16; omega, by intro x hx; simp at hx; subst hx; exact ⟨Nat.zero_lt_one, by show 1 ≤ 64; omega⟩⟩
theorem postNotice_sound (w : BitVec 64) (h : Sound s) : Sound (postNotice w s) := by
  unfold postNotice; dsimp only
  split
  · exact h
  · split
    · exact logError_sound _ _ h
    · split
      · rename_i rs hr
        exact putLane_sound (noticeRuns_ok (laneOf_ok _ h) hr) h
      · exact raiseCause_sound _ (putLane_sound (laneOf_ok _ h) h)
theorem laneRead_ok {l : Lane} (hl : laneOk l) : laneOk (laneRead l) := by
  unfold laneRead; split
  · exact hl
  · rename_i r rs hr
    have h1 := hl.1
    rw [hr] at h1
    split
    · refine ⟨by simpa using h1, ?_⟩
      intro x hx
      simp only [List.mem_cons] at hx
      rcases hx with rfl | hx
      · have := hl.2 r (by rw [hr]; simp)
        exact ⟨by dsimp only; omega, this.2⟩
      · exact hl.2 x (by rw [hr]; simp [hx])
    · refine ⟨by simp at h1; dsimp only; omega, ?_⟩
      intro x hx
      exact hl.2 x (by rw [hr]; simp [hx])
theorem consumeNotice_sound (hot : Bool) (h : Sound s) : Sound (consumeNotice hot s) := by
  have hl := laneRead_ok (laneOf_ok hot h)
  unfold consumeNotice; dsimp only
  split
  · have : Sound (putLane hot { laneRead (laneOf hot s) with overflow := false } s) := putLane_sound hl h
    exact { this with }
  · exact putLane_sound hl h
theorem consume_sound (o : Origin) (h : Sound s) : Sound (consume o s) := by
  cases o
  · exact consumeNotice_sound _ h
  · exact h.sweep_update _
  · exact consumeNotice_sound _ h
end Sys2Proof.Machine
end

