-- ==== Sys2Proof/Laws/SoundFleet.lean ====
section
/-! SUPPORT. `Sound` under the operations of orders, routes, merges, blocks and the fleet (02, 03, 05 to 07). -/

namespace Sys2Proof.Machine
variable {s : State}

/-! ### Orders (03) -/

theorem oweFinal_sound (k : Nat) (f : Final) (h : Sound s) : Sound (oweFinal k f s) := putSlotDue_sound _ _ h
theorem oweTaken_sound (k : Nat) (h : Sound s) : Sound (oweTaken k s) := putSlotDue_sound _ _ h
theorem endNow_sound (t : Taking) (c : ResultCode) (r : Option Reason) (d f : Nat) (h : Sound s) : Sound (endNow t c r d f s) :=
  oweFinal_sound _ _ h
theorem completeNow_sound (t : Taking) (f : Nat) (h : Sound s) : Sound (completeNow t f s) := endNow_sound _ _ _ _ _ h
theorem refuseNow_sound (t : Taking) (r : Reason) (h : Sound s) : Sound (refuseNow t r s) := endNow_sound _ _ _ _ _ h
theorem keepDirective_sound (t : Taking) (k : Nat) (h : Sound s) : Sound (keepDirective t k s) :=
  oweTaken_sound _ (putLive_sound _ _ h)
theorem endDirective_sound (k : Nat) (c : ResultCode) (r : Option Reason) (d f : Nat) (h : Sound s) :
    Sound (endDirective k c r d f s) := by
  unfold endDirective; split
  · exact oweFinal_sound _ _ (putLive_sound _ _ h)
  · exact h
theorem freeShelves_sound (k : Nat) (h : Sound s) : Sound (freeShelves k s) := Sound.foldl (fun _ _ ht => putShelf_sound _ _ ht) _ h
theorem freePick_sound (st : Nat) (h : Sound s) : Sound (freePick st s) := by
  unfold freePick; split
  · exact putShelf_sound _ _ h
  · exact h
theorem unlinkOrder_sound (k : Nat) (v : Option Nat) (h : Sound s) : Sound (unlinkOrder k v s) := by
  cases v with
  | none => exact h
  | some v =>
    unfold unlinkOrder; dsimp only
    split
    · have h1 := endCycle_sound v (modVeh_sound v (fun r => { r with current := none }) h)
      split
      · exact modVeh_sound _ _ h1
      · exact h1
    · split
      · exact modVeh_sound _ _ h
      · exact h
theorem finishOrder_sound (k : Nat) (c : ResultCode) (r : Option Reason) (p : Place) (h : Sound s) :
    Sound (finishOrder k c r p s) := by
  unfold finishOrder; split
  · exact h
  · have h1 : ∀ f v, Sound (putLive k none (unlinkOrder k v (oweFinal k f (freeShelves k s)))) :=
      fun f v => putLive_sound _ _ (unlinkOrder_sound _ _ (oweFinal_sound _ _ (freeShelves_sound _ h)))
    dsimp only
    split
    · exact evaluationEnds_sound (h1 _ _)
    · exact h1 _ _
theorem repend_sound (k : Nat) (h : Sound s) : Sound (repend k s) := by
  unfold repend; split
  · exact h
  · exact putOrder_sound _ _ (unlinkOrder_sound _ _ (freeShelves_sound _ h))
theorem rependChained_sound (v : Nat) (h : Sound s) : Sound (rependChained v s) := by
  unfold rependChained; split
  · exact repend_sound _ h
  · exact h

/-! ### Routes, merges (02, 07) -/

theorem measure_sound (k t : Nat) (h : Sound s) : Sound (measure k t s) := by
  unfold measure; split
  · split
    · exact { h with }
    · exact h
  · exact h
theorem award_sound (m : Nat) (cs : List Nat) (h : Sound s) : Sound (award m cs s).2 := by
  unfold award; split
  · exact h
  · split
    · exact h
    · exact putArbiter_sound _ _ h
theorem parkMerge_sound (m : Nat) (h : Sound s) : Sound (parkMerge m s) := by
  unfold parkMerge; split
  · exact putArbiter_sound _ _ h
  · exact h
theorem convoyExpires_sound (m : Nat) (h : Sound s) : Sound (convoyExpires m s) := by
  unfold convoyExpires; split
  · split
    · exact putArbiter_sound _ _ h
    · exact h
  · exact h

/-! ### Blocks (06) -/

theorem extendIn_sound (v z : Nat) (h : Sound s) : Sound (extendIn v z s) := by
  unfold extendIn; dsimp only; split
  · exact queueGrant_sound _ (putVeh_sound _ _ h)
  · exact h
theorem removeWait_sound (v z : Nat) (h : Sound s) : Sound (removeWait v z s) := putZone_sound _ _ h
theorem takeZone_sound (v z : Nat) (h : Sound s) : Sound (takeZone v z s) := putZone_sound _ _ (removeWait_sound _ _ h)
theorem grant_sound (v z : Nat) (h : Sound s) : Sound (grant v z s) := push_sound _ (extendIn_sound _ _ (takeZone_sound _ _ h))
theorem appendWaiter_sound (v z : Nat) (h : Sound s) : Sound (appendWaiter v z s) := by
  unfold appendWaiter; dsimp only; split
  · split
    · exact push_sound _ (putZone_sound _ _ h)
    · exact putZone_sound _ _ h
  · exact putZone_sound _ _ h
theorem awardZone_sound (m z : Nat) (cs : List Nat) (h : Sound s) : Sound (awardZone m z cs s).2 := by
  have h1 := award_sound m cs h
  unfold awardZone; split
  · rename_i w t he; rw [he] at h1; exact grant_sound _ _ h1
  · rename_i t he; rw [he] at h1; exact h1
theorem request_sound (v z : Nat) (h : Sound s) : Sound (request v z s) := by
  unfold request; dsimp only; split
  · exact appendWaiter_sound _ _ h
  · split
    · exact h
    · rename_i e _
      split
      · split
        · exact appendWaiter_sound _ _ h
        · have h1 := awardZone_sound e.merge z
            (((zoneRec s z).waiters.map (fun w => w.vehicle) ++ [v]).filter (fun c => bayCondition s c z)) h
          split
          · exact h1
          · exact appendWaiter_sound _ _ h1
      · split
        · exact grant_sound _ _ h
        · exact appendWaiter_sound _ _ h
theorem attempt_sound (v : Nat) (h : Sound s) : Sound (attempt v s) := by
  unfold attempt; dsimp only; split
  · split
    · exact h
    · split
      · split
        · split
          · exact extendIn_sound _ _ h
          · exact push_sound _ (extendIn_sound _ _ h)
        · exact h
      · exact request_sound _ _ h
  · exact h
theorem revise_sound (v : Nat) (h : Sound s) : Sound (revise v s) := by
  unfold revise; split
  · exact h
  · split
    · exact h
    · exact push_sound _ (removeWait_sound _ _ h)
theorem serve_sound (z : Nat) (w : Bool) (h : Sound s) : Sound (serve z w s) := by
  unfold serve; dsimp only; split
  · exact h
  · split
    · exact h
    · split
      · split
        · exact parkMerge_sound _ h
        · exact awardZone_sound _ _ _ h
      · split
        · split
          · exact grant_sound _ _ h
          · exact h
        · exact h
theorem reexamine_sound (b : Nat) (h : Sound s) : Sound (reexamine b s) := push_sound _ h
theorem release_sound (v z : Nat) (h : Sound s) : Sound (release v z s) := by
  unfold release; dsimp only; split
  · exact h
  · apply push_sound
    split
    · split
      · exact endDirective_sound _ _ _ _ _ (putZone_sound _ _ h)
      · exact putZone_sound _ _ h
    · exact putZone_sound _ _ h
theorem occupy_sound (v z : Nat) (h : Sound s) : Sound (occupy v z s) := putZone_sound _ _ h
theorem stallExpires_sound (z v : Nat) (h : Sound s) : Sound (stallExpires z v s) := by
  unfold stallExpires; dsimp only; split
  · exact putZone_sound _ _ h
  · exact h

/-! ### The fleet (05) -/

theorem setTarget_sound (v g : Nat) (h : Sound s) : Sound (setTarget v g s) := push_sound _ (modVeh_sound _ _ h)
theorem toIdle_sound (v : Nat) (h : Sound s) : Sound (toIdle v s) := push_sound _ (modVeh_sound _ _ h)
theorem toHolding_sound (v : Nat) (h : Sound s) : Sound (toHolding v s) := push_sound _ (modVeh_sound _ _ h)
theorem failMove_sound (k : Nat) (r : Reason) (p : Place) (h : Sound s) : Sound (failMove k r p s) :=
  finishOrder_sound _ _ _ _ (modOrder_sound _ _ h)
theorem promote_sound (v k : Nat) (h : Sound s) : Sound (promote v k s) := by
  unfold promote; dsimp only; split
  · exact setTarget_sound _ _ (modVeh_sound _ _ (modOrder_sound _ _ h))
  · exact modVeh_sound _ _ (modOrder_sound _ _ h)
theorem completeMove_sound (v k : Nat) (h : Sound s) : Sound (completeMove v k s) := by
  unfold completeMove; dsimp only; split
  · exact promote_sound _ _ (finishOrder_sound _ _ _ _ h)
  · exact toIdle_sound _ (finishOrder_sound _ _ _ _ h)
theorem beginCycle_sound (v : Nat) (k : HoistKind) (st : Nat) (c : Option (List Byte)) (h : Sound s) :
    Sound (beginCycle v k st c s) := handHoist_sound _ _ (modVeh_sound _ _ h)
theorem parkAt_sound (v n : Nat) (h : Sound s) : Sound (parkAt v n s) := push_sound _ (setTarget_sound _ _ (putVeh_sound _ _ h))
theorem circulate_sound (v : Nat) (h : Sound s) : Sound (circulate v s) := by
  unfold circulate; dsimp only
  apply push_sound; split
  · exact setTarget_sound _ _ (putVeh_sound _ _ h)
  · exact push_sound _ (putVeh_sound _ _ h)
theorem parkingRule_sound (v : Nat) (h : Sound s) : Sound (parkingRule v s) := by
  unfold parkingRule; dsimp only; split
  · exact h
  · split
    · split
      · exact push_sound _ (putVeh_sound _ _ h)
      · exact parkAt_sound _ _ h
    · exact circulate_sound _ h
theorem circulatingArrival_sound (v g : Nat) (h : Sound s) : Sound (circulatingArrival v g s) := by
  unfold circulatingArrival; dsimp only; split
  · split
    · exact push_sound _ (putVeh_sound _ _ h)
    · exact parkAt_sound _ _ h
  · split
    · split
      · exact push_sound _ (putVeh_sound _ _ h)
      · exact setTarget_sound _ _ h
    · exact h
theorem jogArrives_sound (v : Nat) (j : Jog) (h : Sound s) : Sound (jogArrives v j s) := by
  unfold jogArrives; dsimp only
  have h1 := modVeh_sound v (fun r => { r with jog := none }) (endDirective_sound j.slot .completed none 0 0 h)
  split
  · exact toHolding_sound _ h1
  · exact toIdle_sound _ h1
theorem arrival_sound (v : Nat) (h : Sound s) : Sound (arrival v s) := by
  unfold arrival; dsimp only
  repeat' split
  all_goals first
    | with_reducible exact h
    | with_reducible exact beginCycle_sound _ _ _ _ (putOrder_sound _ _ h)
    | with_reducible exact circulatingArrival_sound _ _ h
    | with_reducible exact push_sound _ (putVeh_sound _ _ h)
    | with_reducible exact jogArrives_sound _ _ h
theorem offer_sound (n : Nat) (h : Sound s) : Sound (offer n s) := by
  unfold offer; split
  · exact h
  · split
    · exact parkAt_sound _ _ h
    · exact h
theorem nudge_sound (v : Nat) (h : Sound s) : Sound (nudge v s) := by
  unfold nudge; dsimp only; split
  · exact h
  · split
    · split
      · exact parkAt_sound _ _ h
      · exact circulate_sound _ h
    · exact circulate_sound _ h
theorem currentOut_sound (v : Nat) (r : Reason) (h : Sound s) : Sound (currentOut v r s) := by
  unfold currentOut; dsimp only
  repeat' split
  all_goals first
    | with_reducible exact h
    | with_reducible exact failMove_sound _ _ _ h
    | with_reducible exact finishOrder_sound _ _ _ _ h
    | with_reducible exact repend_sound _ h
theorem failJog_sound (v : Nat) (r : Reason) (h : Sound s) : Sound (failJog v r s) := by
  unfold failJog; split
  · exact modVeh_sound _ _ (endDirective_sound _ _ _ _ _ h)
  · exact h
theorem outOfService_sound (v : Nat) (r : Reason) (h : Sound s) : Sound (outOfService v r s) :=
  push_sound _ (modVeh_sound _ _ (failJog_sound _ _ (endCycle_sound _ (rependChained_sound _ (currentOut_sound _ _ h)))))
theorem enterFaulted_sound (v : Nat) (c : FaultCode) (h : Sound s) : Sound (enterFaulted v c s) :=
  modVeh_sound _ _ (queueStand_sound _ (outOfService_sound _ _ h))
theorem enterLost_sound (v : Nat) (h : Sound s) : Sound (enterLost v s) :=
  voidHoist_sound _ (modLink_sound _ _ (dequeue_sound _ _ (modVeh_sound _ _ (outOfService_sound _ _ h))))
theorem hoistJam_sound (v : Nat) (h : Sound s) : Sound (hoistJam v s) := by
  unfold hoistJam; dsimp only
  apply enterFaulted_sound
  split
  · exact failMove_sound _ _ _ h
  · exact h
theorem failHoist_sound (v : Nat) (x : HoistCycle) (r : Reason) (p : Place) (h : Sound s) : Sound (failHoist v x r p s) := by
  unfold failHoist; dsimp only
  have h1 : Sound (match (veh s v).current with
      | some k => failMove k r p s
      | none => s) := by
    split
    · exact failMove_sound _ _ _ h
    · exact h
  split
  · exact toIdle_sound _ (endCycle_sound _ (rependChained_sound _ h1))
  · exact toHolding_sound _ (endCycle_sound _ (rependChained_sound _ h1))
theorem emptyRecord_sound (v : Nat) (h : Sound s) : Sound (emptyRecord v s) := push_sound _ (clearLink_sound _ (putVeh_sound _ _ h))

end Sys2Proof.Machine
end

