-- ==== Sys2Proof/Laws/SoundLink.lean ====
section
/-! SUPPORT. `Sound` under buffers, selection, vehicle frames, the expiries and the transmitter (04, 05, 08, 09). -/

namespace Sys2Proof.Machine
variable {s : State}

/-! ### Buffers (09) -/

theorem reserveDrop_sound (k st : Nat) (h : Sound s) : Sound (reserveDrop k st s) := modOrder_sound _ _ (putShelf_sound _ _ h)
theorem reservePick_sound (k st : Nat) (h : Sound s) : Sound (reservePick k st s) := putShelf_sound _ _ h
theorem noShelf_sound (k v : Nat) (h : Sound s) : Sound (noShelf k v s) :=
  toHolding_sound _ (endCycle_sound _ (rependChained_sound _ (failMove_sound _ _ _ (modOrder_sound _ _ h))))
theorem rechoose_sound (st : Nat) (h : Sound s) : Sound (rechoose st s) := by
  unfold rechoose; dsimp only
  split
  · exact h
  · split
    · exact h
    · split
      · exact h
      · split
        · split
          · exact setTarget_sound _ _ (reserveDrop_sound _ _ (putShelf_sound _ _ h))
          · exact setTarget_sound _ _ (modOrder_sound _ _ (endCycle_sound _ (reserveDrop_sound _ _ (putShelf_sound _ _ h))))
          · exact reserveDrop_sound _ _ (putShelf_sound _ _ h)
        · split
          · exact noShelf_sound _ _ (putShelf_sound _ _ h)
          · exact noShelf_sound _ _ (putShelf_sound _ _ h)
          · exact modOrder_sound _ _ (putShelf_sound _ _ h)
theorem rechooseAll_sound (l : List Nat) (h : Sound s) : Sound (rechooseAll l s) := Sound.foldl (fun _ _ ht => rechoose_sound _ ht) _ h
theorem applyScan_sound (e : BayEntry) (rows : Table (Option Nat)) (h : Sound s) : Sound (applyScan e rows s) :=
  rechooseAll_sound _ (Sound.foldl (fun _ _ ht => putShelf_sound _ _ ht) _ h)
theorem scanFrame_sound (b q first : Nat) (last : Bool) (rows : List Nat) (h : Sound s) : Sound (scanFrame b q first last rows s) := by
  unfold scanFrame; split
  · exact h
  · dsimp only
    repeat' split
    all_goals first
      | with_reducible exact h
      | with_reducible exact applyScan_sound _ _ (putRack_sound _ _ h)
      | with_reducible exact putRack_sound _ _ h
theorem rackExpires_sound (b : Nat) (h : Sound s) : Sound (rackExpires b s) := by
  unfold rackExpires; dsimp only; split
  · exact h
  · split
    · exact h
    · exact rechooseAll_sound _ (Sound.foldl (fun _ _ ht => putShelf_sound _ _ ht) _ (putRack_sound _ _ h))

/-! ### Selection (04) -/

theorem endUnassigned_sound (k : Nat) (h : Sound s) : Sound (endUnassigned k s) := by
  unfold endUnassigned
  apply evaluationEnds_sound
  split
  · exact h
  · exact modOrder_sound _ _ h
theorem beginPass_sound (k : Nat) (o : OrderRec) (h : Sound s) : Sound (beginPass k o s) := by
  unfold beginPass; split
  · exact endUnassigned_sound _ h
  · split
    · exact endUnassigned_sound _ h
    · exact h.dsp_update _
theorem scoreOne_sound (h : Sound s) : Sound (scoreOne s) := by
  unfold scoreOne; split
  · exact h.dsp_update _
  · exact h
theorem reserveSource_sound (k : Nat) (o : OrderRec) (h : Sound s) : Sound (reserveSource k o s) := by
  unfold reserveSource
  repeat' split
  all_goals first
    | with_reducible exact reservePick_sound _ _ h
    | with_reducible exact h
theorem reserveDest_sound (k : Nat) (o : OrderRec) (h : Sound s) : Sound (reserveDest k o s) := by
  unfold reserveDest
  repeat' split
  all_goals first
    | with_reducible exact reserveDrop_sound _ _ h
    | with_reducible exact h
theorem assign_sound (k : Nat) (o : OrderRec) (b : Best) (h : Sound s) : Sound (assign k o b s) := by
  have h3 := reserveDest_sound k o (reserveSource_sound k o h)
  unfold assign; dsimp only
  cases b.kind
  · dsimp only
    apply push_sound
    split
    · exact setTarget_sound _ _ (modVeh_sound _ _ (modOrder_sound _ _ h3))
    · exact modVeh_sound _ _ (modOrder_sound _ _ h3)
  · exact modVeh_sound _ _ (modOrder_sound _ _ h3)
theorem completePass_sound (h : Sound s) : Sound (completePass s) := by
  unfold completePass
  repeat' split
  all_goals first
    | with_reducible exact h
    | with_reducible exact endUnassigned_sound _ h
    | with_reducible exact evaluationEnds_sound (assign_sound _ _ _ h)
    | with_reducible exact beginPass_sound _ _ (h.dsp_update _)
theorem ageAll_sound (h : Sound s) : Sound (ageAll s) := by
  refine h.orders_update (tableWf_map none none _ ?_ h.orders)
  intro p _ hp
  split
  · simp
  · exact hp
theorem agingExpires_sound (h : Sound s) : Sound (agingExpires s) := by
  unfold agingExpires; split
  · exact h
  · dsimp only; split
    · exact h
    · exact ageAll_sound (h.dsp_update _)
theorem startEvaluation_sound (h : Sound s) : Sound (startEvaluation s) := by
  unfold startEvaluation; split
  · exact h
  · exact beginPass_sound _ _ (h.dsp_update _)
theorem evaluationCompletes_sound (h : Sound s) : Sound (evaluationCompletes s) := by
  unfold evaluationCompletes; split
  · exact completePass_sound h
  · exact h
theorem windowNotice_sound (v : Nat) (h : Sound s) : Sound (windowNotice v s) := by
  unfold windowNotice; dsimp only; split
  · exact availability_sound (h.dsp_update _)
  · exact h

/-! ### Vehicle frames (05, 08) -/

theorem unplaced_sound (v : Nat) (h : Sound s) : Sound (unplaced v s) := push_sound _ (queueStand_sound _ (modVeh_sound _ _ h))
theorem noteNode_sound (v n : Nat) (h : Sound s) : Sound (noteNode v n s) := modVeh_sound _ _ h
theorem acceptPass_sound (v i : Nat) (h : Sound s) : Sound (acceptPass v i s) := by
  unfold acceptPass; dsimp only; split
  · exact h
  · apply push_sound; apply windowNotice_sound
    split
    · exact measure_sound _ _ (putVeh_sound _ _ h)
    · exact putVeh_sound _ _ h
theorem passAt_sound (v n : Nat) (h : Sound s) : Sound (passAt v n s) := by
  have h1 := noteNode_sound v n h
  unfold passAt; dsimp only
  repeat' split
  all_goals first
    | with_reducible exact h1
    | with_reducible exact acceptPass_sound _ _ h1
    | with_reducible exact unplaced_sound _ h1
theorem placeArrive_sound (v n i k : Nat) (h : Sound s) : Sound (placeArrive v n i k s) := by
  unfold placeArrive; dsimp only; split
  · exact push_sound _ (emptyRecord_sound _ (putVeh_sound _ _ h))
  · exact push_sound _ (putVeh_sound _ _ h)
theorem arriveAt_sound (v n : Nat) (h : Sound s) : Sound (arriveAt v n s) := by
  have h1 := noteNode_sound v n h
  unfold arriveAt; dsimp only
  repeat' split
  all_goals first
    | with_reducible exact h1
    | with_reducible exact placeArrive_sound _ _ _ _ h1
    | with_reducible exact unplaced_sound _ h1
theorem replyTaken_sound (v : Nat) (h : Sound s) : Sound (replyTaken v s) := by
  unfold replyTaken; dsimp only; split
  · exact dequeueHoist_sound _ (modLink_sound _ _ h)
  · exact modLink_sound _ _ h
theorem hoistReplied_sound (v a : Nat) (h : Sound s) : Sound (hoistReplied v a s) := by
  unfold hoistReplied; dsimp only
  repeat' split
  all_goals first
    | with_reducible exact h
    | with_reducible exact putVeh_sound _ _ h
    | with_reducible exact failHoist_sound _ _ _ _ h
    | with_reducible exact failHoist_sound _ _ _ _ (modVeh_sound _ _ h)
theorem setPlaced_sound (st : Nat) (b : Bool) (h : Sound s) : Sound (setPlaced st b s) := by
  unfold setPlaced; split
  · exact putShelf_sound _ _ h
  · exact h
theorem loadedAgreed_sound (v k : Nat) (o : OrderRec) (h : Sound s) : Sound (loadedAgreed v k o s) := by
  have h1 : Sound (modVeh v (fun r => { r with state := .toDest }) (putOrder k { o with
      state := .carrying, loaded := some s.clock, cancelTooLate := o.cancelTooLate || o.cancelDeferred } (endCycle v s))) :=
    modVeh_sound _ _ (putOrder_sound _ _ (endCycle_sound _ h))
  unfold loadedAgreed; dsimp only
  repeat' split
  all_goals first
    | with_reducible exact noShelf_sound _ _ h1
    | with_reducible exact setTarget_sound _ _ (reserveDrop_sound _ _ h1)
    | with_reducible exact reserveDrop_sound _ _ h1
    | with_reducible exact setTarget_sound _ _ h1
    | with_reducible exact h1
theorem hoistLoaded_sound (v : Nat) (x : HoistCycle) (id : List Byte) (h : Sound s) : Sound (hoistLoaded v x id s) := by
  have h1 : Sound (setPlaced x.station false (freePick x.station s)) := setPlaced_sound _ _ (freePick_sound _ h)
  unfold hoistLoaded; dsimp only
  generalize setPlaced x.station false (freePick x.station s) = t at h1 ⊢
  generalize (if id = [] then none else some id) = read
  split
  · exact endCycle_sound _ h1
  · split
    · exact endCycle_sound _ h1
    · split
      · exact toHolding_sound _ (endCycle_sound _ (rependChained_sound _ (failMove_sound _ _ _ (putOrder_sound _ _ h1))))
      · exact loadedAgreed_sound _ _ _ (putOrder_sound _ _ h1)
theorem hoistUnloaded_sound (v : Nat) (x : HoistCycle) (h : Sound s) : Sound (hoistUnloaded v x s) := by
  unfold hoistUnloaded; dsimp only; split
  · exact completeMove_sound _ _ (setPlaced_sound _ _ h)
  · exact endCycle_sound _ (setPlaced_sound _ _ h)
theorem hoistEnded_sound (v out : Nat) (id : List Byte) (h : Sound s) : Sound (hoistEnded v out id s) := by
  unfold hoistEnded
  repeat' split
  all_goals first
    | with_reducible exact h
    | with_reducible exact hoistLoaded_sound _ _ _ h
    | with_reducible exact failHoist_sound _ _ _ _ (setPlaced_sound _ _ h)
    | with_reducible exact hoistUnloaded_sound _ _ h
    | with_reducible exact failHoist_sound _ _ _ _ h
    | with_reducible exact hoistJam_sound _ h
theorem statusReported_sound (v cond code load : Nat) (h : Sound s) : Sound (statusReported v cond code load s) := by
  unfold statusReported; dsimp only
  repeat' split
  all_goals first
    | with_reducible exact putVeh_sound _ _ h
    | with_reducible exact enterFaulted_sound _ _ h
    | with_reducible exact toHolding_sound _ (putVeh_sound _ _ h)
    | with_reducible exact toIdle_sound _ (putVeh_sound _ _ h)
    | with_reducible exact toHolding_sound _ h
    | with_reducible exact h
theorem confirmAuthority_sound (v held : Nat) (h : Sound s) : Sound (confirmAuthority v held s) := by
  unfold confirmAuthority; dsimp only
  repeat' split
  all_goals first
    | with_reducible exact h
    | with_reducible exact putLink_sound _ _ h
    | with_reducible exact queueGrant_sound _ (putLink_sound _ _ h)
    | with_reducible exact enterFaulted_sound _ _ h
theorem lostFrame_sound (v : Nat) (h : Sound s) : Sound (lostFrame v s) :=
  push_sound _ (queueStand_sound _ (restartSilence_sound _ (modVeh_sound _ _ h)))
theorem vehicleFrame_sound (v : Nat) {act : State → State} (ha : ∀ t, Sound t → Sound (act t)) (h : Sound s) :
    Sound (vehicleFrame v act s) := by
  have h1 := ha _ (restartSilence_sound v h)
  unfold vehicleFrame; dsimp only; split
  · exact queueStand_sound _ h
  · exact lostFrame_sound _ h
  · split
    · exact queueStand_sound _ h1
    · exact h1
theorem tagged_sound (v tag : Nat) {act : State → State} (ha : ∀ t, Sound t → Sound (act t)) (h : Sound s) :
    Sound (tagged v tag act s) := by
  unfold tagged; split
  · exact ha _ (replyTaken_sound _ h)
  · exact h
theorem statusFrame_sound (v cond code load held : Nat) (h : Sound s) : Sound (statusFrame v cond code load held s) := by
  unfold statusFrame; dsimp only; split
  · exact push_sound _ (confirmAuthority_sound _ _ h)
  · exact statusReported_sound _ _ _ _ (confirmAuthority_sound _ _ h)
theorem wholeFrame_sound (f : InFrame) (h : Sound s) : Sound (wholeFrame f s) := by
  unfold wholeFrame
  split
  · refine vehicleFrame_sound _ (fun t ht => ?_) h
    exact passAt_sound _ _ (confirmAuthority_sound _ _ ht)
  · refine vehicleFrame_sound _ (fun t ht => ?_) h
    exact arriveAt_sound _ _ (confirmAuthority_sound _ _ ht)
  · refine vehicleFrame_sound _ (fun t ht => ?_) h
    exact tagged_sound _ _ (fun u hu => hoistReplied_sound _ _ hu) ht
  · refine vehicleFrame_sound _ (fun t ht => ?_) h
    exact tagged_sound _ _ (fun u hu => hoistEnded_sound _ _ _ hu) ht
  · refine vehicleFrame_sound _ (fun t ht => ?_) h
    exact statusFrame_sound _ _ _ _ _ ht
  · exact scanFrame_sound _ _ _ _ _ h
theorem judged_sound (d : Verdict) (h : Sound s) : Sound (judged d s) := by
  cases d
  · exact logError_sound _ _ h
  · exact wholeFrame_sound _ h
theorem receive_sound (f : InFrame) (e : Bool) (h : Sound s) : Sound (receive f e s) := by
  unfold receive; split
  · exact h
  · exact judged_sound _ h
theorem receiveBytes_sound (bs : List Byte) (e : Bool) (h : Sound s) : Sound (receiveBytes bs e s) := by
  unfold receiveBytes; split
  · exact h
  · exact judged_sound _ h
theorem busyRetryExpires_sound (v : Nat) (h : Sound s) : Sound (busyRetryExpires v s) := by
  unfold busyRetryExpires; dsimp only
  repeat' split
  all_goals first
    | with_reducible exact h
    | with_reducible exact handHoist_sound _ _ (putVeh_sound _ _ h)
theorem busyLimitExpires_sound (v : Nat) (h : Sound s) : Sound (busyLimitExpires v s) := by
  unfold busyLimitExpires
  repeat' split
  all_goals first
    | with_reducible exact h
    | with_reducible exact failHoist_sound _ _ _ _ h
theorem endLimitExpires_sound (v : Nat) (h : Sound s) : Sound (endLimitExpires v s) := by
  unfold endLimitExpires
  repeat' split
  all_goals first
    | with_reducible exact h
    | with_reducible exact hoistJam_sound _ h
theorem replyWaitExpires_sound (v : Nat) (h : Sound s) : Sound (replyWaitExpires v s) := by
  unfold replyWaitExpires; dsimp only
  repeat' split
  all_goals first
    | with_reducible exact h
    | with_reducible exact enterFaulted_sound _ _ (modVeh_sound _ _ (putLink_sound _ _ h))
    | with_reducible exact queueHoist_sound _ (modVeh_sound _ _ (putLink_sound _ _ h))
    | with_reducible exact putLink_sound _ _ h
theorem silenceExpires_sound (v : Nat) (h : Sound s) : Sound (silenceExpires v s) := by
  unfold silenceExpires
  repeat' split
  all_goals first
    | with_reducible exact h
    | with_reducible exact enterLost_sound _ h

/-! ### The transmitter and LINK_HOLD (08) -/

theorem transmitTake_sound (h : Sound s) : Sound (transmitTake s) := by
  unfold transmitTake; split
  · exact h
  · rename_i hn
    have hl : s.tsl.linkHold = false := by
      cases hx : s.tsl.linkHold
      · rfl
      · exact absurd (Or.inr hx) hn
    have g : Sound (takeGrant s) := by
      unfold takeGrant; split
      · exact h
      · exact { h with held := fun x => absurd x (by simp [hl]) }
    have k : Sound (takeHoist s) := by
      unfold takeHoist; split
      · exact h
      · exact modVeh_sound _ _ { h with held := fun x => absurd x (by simp [hl]) }
    repeat' split
    all_goals first
      | with_reducible exact g
      | with_reducible exact k
theorem frameLeaves_sound (t : Tx) (h : Sound s) : Sound (frameLeaves t s) :=
  { h with held := fun x => ⟨(h.held x).1, (h.held x).2.1, rfl⟩ }
theorem grantLeaves_sound (h : Sound s) : Sound (grantLeaves s) := by
  unfold grantLeaves
  repeat' split
  all_goals first
    | with_reducible exact modLink_sound _ _ (frameLeaves_sound _ h)
    | with_reducible exact h
theorem standLeaves_sound (h : Sound s) : Sound (standLeaves s) := by
  unfold standLeaves
  repeat' split
  all_goals first
    | with_reducible exact modLink_sound _ _ (frameLeaves_sound _ h)
    | with_reducible exact h
theorem hoistLeaves_sound (h : Sound s) : Sound (hoistLeaves s) := by
  unfold hoistLeaves; dsimp only
  repeat' split
  all_goals first
    | with_reducible exact frameLeaves_sound _ h
    | with_reducible exact modLink_sound _ _ (frameLeaves_sound _ h)
    | with_reducible exact modVeh_sound _ _ (modLink_sound _ _ (frameLeaves_sound _ h))
    | with_reducible exact h
theorem linkHoldOn_sound (h : Sound s) : Sound (linkHoldOn s) :=
  Sound.foldl (fun _ _ ht => modVeh_sound _ _ ht) _ (Sound.foldl (fun _ _ ht => modLink_sound _ _ ht) _
    { h with held := fun _ => ⟨rfl, rfl, rfl⟩ })
theorem authorityAgain_sound (v : Nat) (r : Vehicle) (h : Sound s) : Sound (authorityAgain v r s) := by
  unfold authorityAgain
  repeat' split
  all_goals first
    | with_reducible exact h
    | with_reducible exact queueGrant_sound _ h
    | with_reducible exact queueStand_sound _ h
theorem hoistAgain_sound (v : Nat) (r : Vehicle) (h : Sound s) : Sound (hoistAgain v r s) := by
  unfold hoistAgain
  repeat' split
  all_goals first
    | with_reducible exact h
    | with_reducible exact handHoist_sound _ _ h
theorem linkHoldOff_sound (h : Sound s) : Sound (linkHoldOff s) :=
  Sound.foldl (fun _ _ ht => hoistAgain_sound _ _ ht) _ (Sound.foldl (fun _ _ ht => authorityAgain_sound _ _ ht) _
    { h with held := fun x => absurd x (by simp) })
theorem setLinkHold_sound (b : Bool) (h : Sound s) : Sound (setLinkHold b s) := by
  unfold setLinkHold
  repeat' split
  all_goals first
    | with_reducible exact h
    | with_reducible exact linkHoldOn_sound h
    | with_reducible exact linkHoldOff_sound h

end Sys2Proof.Machine
end

