-- ==== Sys2Proof/Laws/SoundEvents.lean ====
section
/-! SUPPORT. `Sound` under the map directives, the resets, the takings of orders, slot reads, and one event. -/

namespace Sys2Proof.Machine
variable {s : State}

/-! ### The map store (01, 02) -/

theorem setRun_sound (r : MapRun) (h : Sound s) : Sound (setRun r s) := h.map_update _
theorem takeMap_sound (t : Taking) (op : MapOp) (h : Sound s) : Sound (takeMap t op s) := by
  unfold takeMap; dsimp only; split
  · exact refuseNow_sound _ _ h
  · have h1 := keepDirective_sound t (mapKind op) h
    split
    · exact push_sound _ (h1.map_update _)
    · exact h1.map_update _
theorem endHead_sound (c : ResultCode) (r : Option Reason) (d f : Nat) (h : Sound s) : Sound (endHead c r d f s) := by
  unfold endHead; split
  · exact h
  · exact push_sound _ (endDirective_sound _ _ _ _ _ (h.map_update _))
theorem refuseHead_sound (r : Reason) (d : Nat) (h : Sound s) : Sound (refuseHead r d s) := endHead_sound _ _ _ _ h
theorem cancelMap_sound (k : Nat) (h : Sound s) : Sound (cancelMap k s) := by
  unfold cancelMap; split
  · exact h
  · split
    · exact endDirective_sound _ _ _ _ _ (h.map_update _)
    · exact h
theorem discardLive_sound (h : Sound s) : Sound (discardLive s) :=
  { h with zones := rfl, shelves := rfl }
theorem headOpen_sound (h : Sound s) : Sound (headOpen s) := by
  unfold headOpen; split
  · exact refuseHead_sound _ _ h
  · split
    · exact refuseHead_sound _ _ h
    · split
      · exact endHead_sound _ _ _ _ (h.map_update _)
      · exact endHead_sound _ _ _ _ h
      · exact endHead_sound _ _ _ _ (discardLive_sound h)
theorem writeEntry_sound (sec i : Nat) (bs : List Byte) (h : Sound s) : Sound (writeEntry sec i bs s) := h.map_update _
theorem emptyRange_sound (sec a b : Nat) (h : Sound s) : Sound (emptyRange sec a b s) := h.map_update _
theorem loadFails_sound (a b c d i n : Nat) (h : Sound s) : Sound (loadFails a b c d i n s) :=
  refuseHead_sound _ _ (emptyRange_sound _ _ _ (logFault_sound _ _ h))
theorem loadRead_sound (a b c d i : Nat) (h : Sound s) : Sound (loadRead a b c d i s) := by
  unfold loadRead; split
  · exact setRun_sound _ h
  · exact loadFails_sound _ _ _ _ _ _ h
theorem headLoad_sound (a b c d : Nat) (h : Sound s) : Sound (headLoad a b c d s) := by
  unfold headLoad; split
  · exact refuseHead_sound _ _ h
  · exact loadRead_sound _ _ _ _ _ h
theorem loadEntryDone_sound (r : ReadResult) (h : Sound s) : Sound (loadEntryDone r s) := by
  unfold loadEntryDone; split
  · split
    · exact loadFails_sound _ _ _ _ _ _ h
    · dsimp only; split
      · exact loadRead_sound _ _ _ _ _ (writeEntry_sound _ _ _ h)
      · exact endHead_sound _ _ _ _ (writeEntry_sound _ _ _ h)
  · exact h
theorem headCommit_sound (h : Sound s) : Sound (headCommit s) := by
  unfold headCommit; split
  · exact refuseHead_sound _ _ h
  · exact setRun_sound _ h
theorem commitMap_sound (h : Sound s) : Sound (commitMap s) :=
  { h with
    zones := rfl
    shelves := rfl
    held := fun x => ⟨by simp [commitMap, (h.held x).1], (h.held x).2⟩ }
theorem validationDone_sound (h : Sound s) : Sound (validationDone s) := by
  unfold validationDone; split
  · split
    · exact refuseHead_sound _ _ h
    · exact endHead_sound _ _ _ _ (commitMap_sound h)
  · exact h
theorem patchFails_sound (a i n : Nat) (h : Sound s) : Sound (patchFails a i n s) := refuseHead_sound _ _ (logFault_sound _ _ h)
theorem patchRead_sound (a : Nat) (buf : List PatchEntry) (h : Sound s) : Sound (patchRead a buf s) := by
  unfold patchRead; split
  · exact setRun_sound _ h
  · exact patchFails_sound _ _ _ h
theorem headPatch_sound (a b : Nat) (h : Sound s) : Sound (headPatch a b s) := by
  unfold headPatch; split
  · exact refuseHead_sound _ _ h
  · exact patchRead_sound _ _ h
theorem patchEntryDone_sound (r : ReadResult) (h : Sound s) : Sound (patchEntryDone r s) := by
  unfold patchEntryDone; split
  · split
    · exact patchFails_sound _ _ _ h
    · dsimp only; split
      · exact patchRead_sound _ _ h
      · split
        · exact refuseHead_sound _ _ h
        · exact setRun_sound _ h
  · exact h
theorem patchCheckDone_sound (h : Sound s) : Sound (patchCheckDone s) := by
  unfold patchCheckDone; split
  · dsimp only; split
    · exact refuseHead_sound _ _ h
    · exact endHead_sound _ _ _ _ (push_sound _ (clearStale_sound (h.map_update _)))
  · exact h
theorem mapHead_sound (h : Sound s) : Sound (mapHead s) := by
  unfold mapHead; split
  · split
    · exact headOpen_sound h
    · exact headLoad_sound _ _ _ _ h
    · exact headCommit_sound h
    · exact headPatch_sound _ _ h
  · exact h

/-! ### Resets and CONTROL (10) -/

/-- What an abandoned write leaves: host memory in its canonical form, and nothing else changed but the count of free
values. -/
theorem abandonWrites_window (l : List (WinRec × Job)) (h : Sound s) :
    Sound (abandonWrites l s) := by
  induction l generalizing s with
  | nil => exact h
  | cons p l ih => exact ih { h with memory := writeParts_wf _ h.memory }
theorem coldReset_sound (p : Bool) (h : Sound s) : Sound (coldReset p s) where
  memory := (abandonWrites_window s.win.jobs h).memory
  orders := rfl
  vehicles := rfl
  zones := rfl
  shelves := rfl
  links := rfl
  hot := ⟨Nat.zero_le _, by simp [coldReset, State.reset]⟩
  normal := ⟨Nat.zero_le _, by simp [coldReset, State.reset]⟩
  mask := by show upperBits 0#64 = 0#64; decide
  base := by show upperBits 0#64 ||| (if (0#64).getLsbD 0 then 1 else 0) = 0#64; decide
  check := Nat.zero_le _
  deferred := List.nodup_nil
  held := fun x => absurd x (by simp [coldReset, State.reset])
theorem warmZones_wf {t : Table ZoneRec} (h : tableWf {} t = true) :
    tableWf {} (warmZones t) = true := by
  refine tableWf_filterMap ({} : ZoneRec) ({} : ZoneRec) _ ?_ ?_ h
  · intro p q hq
    split at hq
    · cases hq
    · cases hq; rfl
  · intro p q hq
    split at hq
    · cases hq
    · rename_i hn
      cases hq
      intro e
      have := congrArg ZoneRec.live e
      simp [warmZone, hn] at this
theorem warmReset_sound (h : Sound s) : Sound (warmReset s) where
  memory := (abandonWrites_window s.win.jobs h).memory
  orders := rfl
  vehicles := rfl
  zones := by
    unfold warmReset; dsimp only; split
    · exact warmZones_wf (abandonWrites_window s.win.jobs h).zones
    · rfl
  shelves := rfl
  links := rfl
  hot := ⟨Nat.zero_le _, by simp [warmReset, State.reset]⟩
  normal := ⟨Nat.zero_le _, by simp [warmReset, State.reset]⟩
  mask := (abandonWrites_window s.win.jobs h).mask
  base := (abandonWrites_window s.win.jobs h).base
  check := Nat.zero_le _
  deferred := List.nodup_nil
  held := fun x => absurd x (by simp [warmReset, State.reset])
theorem clearLog_sound (h : Sound s) : Sound (clearLog s) := by
  unfold clearLog; split
  · exact { h with }
  · exact h
theorem ce_update_sound (b : Bool) (h : Sound s) : Sound { s with win := { s.win with ce := b } } := { h with }
theorem manual_update_sound (b : Bool) (h : Sound s) : Sound { s with win := { s.win with manualEnable := b } } := { h with }
theorem controlWrite_sound (w : BitVec 64) (h : Sound s) : Sound (controlWrite w s) := by
  unfold controlWrite; split
  · exact warmReset_sound h
  · have h1 : Sound (if w.getLsbD 9 then clearLog s else s) := by
      split
      · exact clearLog_sound h
      · exact h
    have h4 := ce_update_sound (w.getLsbD 8) (setLinkHold_sound (w.getLsbD 5) (manual_update_sound (w.getLsbD 4) h1))
    dsimp only
    split
    · exact startStrobe_sound h4
    · exact h4
theorem registerStore_sound (o : Nat) (w : BitVec 64) (h : Sound s) : Sound (registerStore o w s) := by
  unfold registerStore
  repeat' split
  all_goals first
    | with_reducible exact controlWrite_sound _ h
    | with_reducible exact postNotice_sound _ h
    | with_reducible exact holdClear_sound h
    | with_reducible exact causeClear_sound _ h
    | with_reducible exact enableWrite_sound _ h
    | with_reducible exact writeBase_sound _ h
    | with_reducible exact writeMask_sound _ h
    | with_reducible exact h

/-! ### Directives and takings (03, 05, 06, 09) -/

theorem acceptStation_sound (t : Taking) (r : OrderRec) (h : Sound s) : Sound (acceptStation t r s) :=
  oweTaken_sound _ (putOrder_sound _ _ h)
theorem acceptVehicle_sound (t : Taking) (v : Nat) (r : OrderRec) (h : Sound s) : Sound (acceptVehicle t v r s) := by
  have h1 : Sound (oweTaken t.slot (putOrder t.slot { r with
      state := .carrying, vehicle := some v, assigned := some t.time, loaded := some t.time } s)) :=
    oweTaken_sound _ (putOrder_sound _ _ h)
  unfold acceptVehicle; dsimp only
  generalize oweTaken t.slot (putOrder t.slot { r with
      state := .carrying, vehicle := some v, assigned := some t.time, loaded := some t.time } s) = u at h1 ⊢
  split
  · split
    · exact setTarget_sound _ _ (modVeh_sound _ _ h1)
    · exact modVeh_sound _ _ h1
  · split
    · split
      · exact setTarget_sound _ _ (modVeh_sound _ _ (reserveDrop_sound _ _ h1))
      · exact modVeh_sound _ _ (reserveDrop_sound _ _ h1)
    · exact oweFinal_sound _ _ h
theorem takeMove_sound (t : Taking) (m : MoveOps) (h : Sound s) : Sound (takeMove t m s) := by
  unfold takeMove refuseMove
  repeat' split
  all_goals first
    | with_reducible exact oweFinal_sound _ _ h
    | with_reducible exact acceptStation_sound _ _ h
    | with_reducible exact acceptVehicle_sound _ _ _ h
theorem takeFleetOpen_sound (t : Taking) (h : Sound s) : Sound (takeFleetOpen t s) := by
  unfold takeFleetOpen; split
  · exact refuseNow_sound _ _ h
  · split
    · exact completeNow_sound _ _ h
    · have h1 : Sound { s with flt := { s.flt with phase := .operating } } := { h with }
      exact completeNow_sound _ _ (push_sound _ h1)
theorem takeAdmit_sound (t : Taking) (v p k : Nat) (h : Sound s) : Sound (takeAdmit t v p k s) := by
  unfold takeAdmit; split
  · exact refuseNow_sound _ _ h
  · split
    · exact refuseNow_sound _ _ h
    · dsimp only
      repeat' split
      all_goals first
        | with_reducible exact refuseNow_sound _ _ h
        | exact completeNow_sound _ _ (push_sound _ (queueStand_sound _ (restartSilence_sound _ (putVeh_sound _ _ (occupy_sound _ _ h)))))
theorem retireIdle_sound (v : Nat) (h : Sound s) : Sound (retireIdle v s) := by
  unfold retireIdle; dsimp only; split
  · exact push_sound _ (emptyRecord_sound _ h)
  · exact push_sound _ (putVeh_sound _ _ h)
theorem takeRetire_sound (t : Taking) (v : Nat) (h : Sound s) : Sound (takeRetire t v s) := by
  unfold takeRetire; dsimp only
  repeat' split
  all_goals first
    | with_reducible exact refuseNow_sound _ _ h
    | with_reducible exact completeNow_sound _ _ (retireIdle_sound _ h)
    | with_reducible exact completeNow_sound _ _ (push_sound _ (emptyRecord_sound _ h))
theorem takeLocate_sound (t : Taking) (v k : Nat) (h : Sound s) : Sound (takeLocate t v k s) := by
  unfold takeLocate; dsimp only; split
  · exact refuseNow_sound _ _ h
  · split
    · exact refuseNow_sound _ _ h
    · rename_i e _
      have h1 := putVeh_sound v (located (veh s v) e.toNode k) (occupy_sound v e.zone h)
      generalize putVeh v (located (veh s v) e.toNode k) (occupy v e.zone s) = u at h1 ⊢
      repeat' split
      all_goals first
        | with_reducible exact refuseNow_sound _ _ h
        | with_reducible exact completeNow_sound _ _ (push_sound _ (queueStand_sound _ (restartSilence_sound _ h1)))
        | with_reducible exact completeNow_sound _ _ (push_sound _ h1)
theorem takeRelease_sound (t : Taking) (v : Nat) (h : Sound s) : Sound (takeRelease t v s) := by
  unfold takeRelease; dsimp only
  repeat' split
  all_goals first
    | with_reducible exact refuseNow_sound _ _ h
    | with_reducible exact completeNow_sound _ _ (putVeh_sound _ _ h)
theorem takeJog_sound (t : Taking) (v n : Nat) (h : Sound s) : Sound (takeJog t v n s) := by
  unfold takeJog; dsimp only
  repeat' split
  all_goals first
    | with_reducible exact refuseNow_sound _ _ h
    | with_reducible exact push_sound _ (setTarget_sound _ _ (putVeh_sound _ _ (keepDirective_sound _ _ h)))
theorem takePoolPolicy_sound (t : Taking) (b m r : Nat) (h : Sound s) : Sound (takePoolPolicy t b m r s) := by
  unfold takePoolPolicy; dsimp only
  repeat' split
  all_goals first
    | with_reducible exact refuseNow_sound _ _ h
    | exact completeNow_sound _ _ (availability_sound (h.map_update _))
theorem takeZoneClose_sound (t : Taking) (z : Nat) (h : Sound s) : Sound (takeZoneClose t z s) := by
  unfold takeZoneClose; dsimp only
  repeat' split
  all_goals first
    | with_reducible exact refuseNow_sound _ _ h
    | with_reducible exact endNow_sound _ _ _ _ _ h
    | with_reducible exact completeNow_sound _ _ h
    | with_reducible exact completeNow_sound _ _ (putZone_sound _ _ h)
    | with_reducible exact putZone_sound _ _ (keepDirective_sound _ _ h)
theorem takeZoneOpen_sound (t : Taking) (z : Nat) (h : Sound s) : Sound (takeZoneOpen t z s) := by
  unfold takeZoneOpen; dsimp only
  repeat' split
  all_goals first
    | with_reducible exact refuseNow_sound _ _ h
    | with_reducible exact completeNow_sound _ _ h
    | with_reducible exact completeNow_sound _ _ (push_sound _ (putZone_sound _ _ h))
    | with_reducible exact completeNow_sound _ _ (endDirective_sound _ _ _ _ _ (putZone_sound _ _ h))
    | with_reducible exact completeNow_sound _ _ (putZone_sound _ _ h)
theorem takeStationState_sound (t : Taking) (st x : Nat) (h : Sound s) : Sound (takeStationState t st x s) := by
  unfold takeStationState; dsimp only
  split
  · exact refuseNow_sound _ _ h
  · split
    · exact refuseNow_sound _ _ h
    · apply completeNow_sound
      split
      · exact h
      · exact availability_sound (h.map_update _)
theorem countTaking_sound (h : Sound s) : Sound (countTaking s) := { h with }
theorem routeOrder_sound (t : Taking) (op : SlotOp) (h : Sound s) : Sound (routeOrder t op s) := by
  unfold routeOrder; split
  · exact takeMove_sound _ _ h
  · exact takeMap_sound _ _ h
  · exact takeFleetOpen_sound _ h
  · exact takeAdmit_sound _ _ _ _ h
  · exact takeRetire_sound _ _ h
  · exact takeLocate_sound _ _ _ h
  · exact takeRelease_sound _ _ h
  · exact takeJog_sound _ _ _ h
  · exact takePoolPolicy_sound _ _ _ _ h
  · exact takeZoneClose_sound _ _ h
  · exact takeZoneOpen_sound _ _ h
  · exact takeStationState_sound _ _ _ h
  · exact refuseNow_sound _ _ h
theorem takeSlot_sound (k : Nat) (c : SlotContents) (h : Sound s) : Sound (takeSlot k c s) := by
  unfold takeSlot cancelAtIntake cancelledMove; dsimp only
  split
  · split
    · exact oweFinal_sound _ _ (countTaking_sound h)
    · exact endNow_sound _ _ _ _ _ (countTaking_sound h)
  · exact routeOrder_sound _ _ (countTaking_sound h)
theorem takeRow_sound (k : Nat) (tag : BitVec 32) (op : SlotOp) (h : Sound s) : Sound (takeRow k tag op s) := by
  unfold takeRow; split
  · exact takeSlot_sound _ _ h
  · exact h
theorem cancelLive_sound (k : Nat) (h : Sound s) : Sound (cancelLive k s) := by
  unfold cancelLive; dsimp only
  repeat' split
  all_goals first
    | with_reducible exact h
    | with_reducible exact cancelMap_sound _ h
    | with_reducible exact finishOrder_sound _ _ _ _ h
    | with_reducible exact toIdle_sound _ (finishOrder_sound _ _ _ _ h)
    | with_reducible exact putOrder_sound _ _ h
theorem readStart_sound (h : Sound s) : Sound (readStart s) := by
  unfold readStart
  repeat' split
  all_goals first
    | with_reducible exact h
    | with_reducible exact h.read_update _
    | with_reducible exact consume_sound _ (logFault_sound _ _ h)
theorem stray_sound (rd : SlotRead) (n : Nat) (h : Sound s) : Sound (stray rd n s) := by
  unfold stray; split
  · exact h
  · exact logError_sound _ _ h
  · exact logError_sound _ _ h
theorem actOn_sound (rd : SlotRead) (c : SlotContents) (h : Sound s) : Sound (actOn rd c s) := by
  have h1 := consume_sound rd.origin h
  unfold actOn; dsimp only
  repeat' split
  all_goals first
    | with_reducible exact takeSlot_sound _ _ h1
    | with_reducible exact cancelLive_sound _ h1
    | with_reducible exact stray_sound _ _ h1
    | with_reducible exact h1
    | with_reducible exact h
theorem readDone_sound (r : ReadResult) (h : Sound s) : Sound (readDone r s) := by
  unfold readDone; split
  · exact h
  · dsimp only; split
    · exact consume_sound _ (logFault_sound _ _ (h.read_update _))
    · exact actOn_sound _ _ (h.read_update _)

/-! ### Events -/

theorem runTask_sound (t : Task) (h : Sound s) : Sound (runTask t s) := by
  unfold runTask; split
  · exact attempt_sound _ h
  · exact revise_sound _ h
  · exact serve_sound _ _ h
  · exact release_sound _ _ h
  · exact reexamine_sound _ h
  · exact nudge_sound _ h
  · exact parkingRule_sound _ h
  · exact offer_sound _ h
  · exact arrival_sound _ h
  · exact statusReported_sound _ _ _ _ h
  · exact mapHead_sound h
theorem cascade_sound (n : Nat) (h : Sound s) : Sound (cascade n s) := by
  induction n generalizing s with
  | zero => exact h
  | succ n ih =>
    unfold cascade; split
    · exact h
    · exact ih (Sound.agenda_update (runTask_sound _ (h.agenda_update _)) _)
/-- An event whose own effect keeps `Sound` answers a sound state. -/
theorem event_sound {f : State → State} {t : State} (hf : Sound (f s)) (h : event f s = .next t) : Sound t := by
  cases h
  exact finishWith_sound _ _ (cascade_sound _ hf)

end Sys2Proof.Machine
end

