-- ==== Sys2Proof/Laws/Writes.lean ====
section
/-! SUPPORT. Where a record's write lands, what a taking of an order is, and writes of one table entry after another. -/

namespace Sys2Proof.Machine

/-! ### Where writes land -/

theorem readBytes_other (bs : List Byte) (m : Memory) (a x : Nat) (h : ∀ i < bs.length, byteAddr a i ≠ x) :
    readByte (writeBytes m a bs) x = readByte m x := by
  induction bs generalizing m a with
  | nil => rfl
  | cons b bs ih =>
    have h0 := h 0 (by simp)
    rw [writeBytes, ih, readByte_writeByte_other]
    · simpa [byteAddr] using h0.symm
    · intro i hi
      have h1 : addrAdd a (i + 1) ≠ x := h (i + 1) (by simpa using hi)
      unfold byteAddr
      split
      · rename_i hz
        subst hz
        exact h1
      · simp only [addrAdd] at h1 ⊢; omega

/-- A record's write leaves every byte alone that no part of it covers. -/
theorem readParts_other (ps : List (Nat × List Byte)) (m : Memory) (x : Nat) (h : covers ps x = false) :
    readByte (writeParts m ps) x = readByte m x := by
  induction ps generalizing m with
  | nil => rfl
  | cons p ps ih =>
    obtain ⟨a, bs⟩ := p
    simp only [covers, List.any_cons, Bool.or_eq_false_iff] at h
    rw [writeParts, ih _ h.2, readBytes_other]
    intro i hi
    have := h.1
    simp at this
    exact this i hi

/-- The first bytes of a record's parts cover no address that the parts do not. -/
theorem covers_partsPrefix (n x : Nat) (ps : List (Nat × List Byte)) (h : covers ps x = false) :
    covers (partsPrefix n ps) x = false := by
  induction ps generalizing n with
  | nil => rfl
  | cons p ps ih =>
    simp only [covers, partsPrefix, List.any_cons, Bool.or_eq_false_iff] at *
    refine ⟨?_, ih _ h.2⟩
    have h1 := h.1
    rw [List.any_eq_false] at h1 ⊢
    intro i hi
    simp only [List.mem_range, List.length_take] at hi
    exact h1 i (List.mem_range.mpr (by omega))

/-- What a reset's abandoned writes leave: host memory, at most where the writes' parts land, and the count of free
values; nothing else. -/
theorem abandonWrites_eq (l : List (WinRec × Job)) (s : State) :
    ∃ m, abandonWrites l s = { s with freeIndex := s.freeIndex + l.length, window := m } ∧ (l = [] → m = s.window) ∧
      ∀ a, (∀ j ∈ l, covers j.2.parts a = false) → readByte m a = readByte s.window a := by
  induction l generalizing s with
  | nil => exact ⟨s.window, rfl, fun _ => rfl, fun _ _ => rfl⟩
  | cons p l ih =>
    obtain ⟨r, j⟩ := p
    obtain ⟨m, h1, -, h3⟩ := ih { s with
      window := writeParts s.window (partsPrefix (Config.landedBytes s.freeIndex) j.parts), freeIndex := s.freeIndex + 1 }
    refine ⟨m, ?_, by simp, ?_⟩
    · rw [abandonWrites, h1]
      simp only [List.length_cons, Nat.add_assoc, Nat.add_comm 1]
    · intro a ha
      rw [h3 a (fun j hj => ha j (by simp [hj]))]
      exact readParts_other _ _ _ (covers_partsPrefix _ _ _ (ha (r, j) (by simp)))

/-! ### Tables -/

/-- Of two writes of one entry the first does not matter, unless it emptied the entry. -/
theorem tset_tset {α : Type} [DecidableEq α] (d : α) (t : Table α) (i : Nat) {a : α} (b : α) (h : a ≠ d) :
    tset d (tset d t i a) i b = tset d t i b := by
  induction t with
  | nil => simp only [tset, if_neg h, Nat.lt_irrefl, if_false, if_true]
  | cons p t ih =>
    obtain ⟨k, w⟩ := p
    by_cases h1 : i < k
    · simp only [tset, if_pos h1, if_neg h, Nat.lt_irrefl, if_false, if_true]
    · by_cases h2 : i = k
      · simp only [tset, if_neg h1, if_pos h2, if_neg h, Nat.lt_irrefl, if_false, if_true]
      · simp only [tset, if_neg h1, if_neg h2, ih]

/-- Writing the entry that a table in canonical form holds changes nothing. -/
theorem tset_self {α : Type} [DecidableEq α] (d : α) {t : Table α} (i : Nat) (h : tableWf d t = true) :
    tset d t i (tget d t i) = t := by
  induction t with
  | nil => simp [tset]
  | cons p t ih =>
    obtain ⟨k, w⟩ := p
    simp only [tableWf, Bool.and_eq_true, Bool.not_eq_true', decide_eq_false_iff_not] at h
    by_cases hk : k = i
    · subst hk
      simp [tset, tget_cons, h.1.2]
    · rw [tget_cons, if_neg hk]
      simp only [tset]
      split
      · rw [tget_of_above d h.1.1 (by omega)]; simp
      · rw [if_neg (Ne.symm hk), ih h.2]

/-- The full write's revision tables (10 R187, R195). -/
theorem tget_bumpAll (n : Nat) (t : Table (BitVec 16)) (i : Nat) (h : i < n) : tget 0 (bumpAll n t) i = tget 0 t i + 2 := by
  have go (l : List Nat) (hi : i ∈ l) :
      tget 0 (l.filterMap (fun i => if tget 0 t i + 2 = 0 then none else some (i, tget 0 t i + 2))) i = tget 0 t i + 2 := by
    induction l with
    | nil => simp at hi
    | cons a l ih =>
      rw [List.filterMap_cons]
      by_cases ha : tget 0 t a + 2 = 0
      · simp only [ha, if_true]
        by_cases hl : i ∈ l
        · exact ih hl
        · obtain rfl : i = a := by simpa [hl] using hi
          rw [ha, tget_of_not_mem]
          simp only [tkeys, List.mem_map, List.mem_filterMap, not_exists, not_and]
          rintro ⟨x, y⟩ ⟨z, hz, hz2⟩ e
          split at hz2
          · cases hz2
          · simp only [Option.some.injEq, Prod.mk.injEq] at hz2
            simp only at e
            exact hl (e ▸ hz2.1 ▸ hz)
      · simp only [ha, if_false, tget_cons]
        by_cases e : a = i
        · simp [e]
        · rw [if_neg e]
          exact ih (by simpa [Ne.symm e] using hi)
  exact go _ (by simpa using h)

/-! ### The writer -/

/-- A write that would lie outside the window is dropped (10 R185). -/
theorem beginWrite_outside (r : WinRec) (cs : Causes) {l : Layout} {s : State} (hl : s.win.layout = some l)
    (ha : accessOk s (recordOffset l r) (recordSize r) = false) :
    beginWrite r cs s = raiseCauses (writeCauses s r cs) (logFault 5 (recordOffset l r) (clearDue r s)) := by
  simp [beginWrite, hl, ha]

/-- A write without a cause that falls due under HOLD: a new deferred one, unless the record's already waits (10 R193). -/
theorem defer_noCauses (r : WinRec) (l : List (WinRec × Causes)) :
    ∃ new, defer r {} l = l ++ new ∧ (∀ p ∈ new, p = (r, {}) ∧ ∀ q ∈ l, q.1 ≠ r) ∧ ∃ p ∈ l ++ new, p.1 = r := by
  induction l with
  | nil => exact ⟨[(r, {})], rfl, by simp, by simp⟩
  | cons p l ih =>
    obtain ⟨q, ds⟩ := p
    obtain ⟨new, h1, h2, p, h3, h4⟩ := ih
    simp only [defer]
    split
    · rename_i h
      exact ⟨[], by simp [joinCauses], by simp, (q, ds), by simp, h⟩
    · rename_i h
      refine ⟨new, by simp [h1], fun x hx => ⟨(h2 x hx).1, fun y hy => ?_⟩, p, List.mem_cons_of_mem _ h3, h4⟩
      rcases List.mem_cons.1 hy with rfl | hy
      · exact h
      · exact (h2 x hx).2 y hy

/-- A frame in transmission is told that it starts no reply wait if it is a HOIST to the vehicle (08 R157, R159, R166). -/
theorem voidHoist_eq (v : Nat) (s : State) : voidHoist v s = { s with tsl := { s.tsl with tx := s.tsl.tx.map (fun x =>
    match x.frame with
    | .hoist _ => if x.vehicle = v then { x with noWait := true } else x
    | _ => x) } } := by
  have self (t : Option Tx) (h : s.tsl.tx = t) : ({ s with tsl := { s.tsl with tx := t } } : State) = s := by subst h; rfl
  rw [voidHoist]
  rcases hx : s.tsl.tx with _ | ⟨a, f, b⟩
  · exact (self none hx).symm
  · cases f
    · exact (self _ hx).symm
    · by_cases hv : a = v
      · simp [hv]
      · simp only [hv, if_false, Option.map_some]
        exact (self _ hx).symm
    · exact (self _ hx).symm

/-! ### Takings -/

/-- The taking of a slot by its row is the order's own intake (log 3). -/
theorem takeRow_taken {s : State} {slot : Nat} {tag : BitVec 32} {op : SlotOp} (h : takeable s slot = true) :
    takeRow slot tag op s = routeOrder (taking s slot tag) op (countTaking s) := by
  simp [takeRow, h, takeSlot]

theorem setLinkHold_same {b : Bool} {s : State} (h : s.tsl.linkHold = b) : setLinkHold b s = s := by simp [setLinkHold, h]

theorem settle_ite {p : Prop} [Decidable p] (s a b : State) :
    settle s (if p then a else b) = if p then settle s a else settle s b := by split <;> rfl
theorem finish_ite {p : Prop} [Decidable p] (s a b : State) :
    finish s (if p then a else b) = if p then finish s a else finish s b := by split <;> rfl

end Sys2Proof.Machine
end

