-- ==== Sys2Proof/Tests/Slice0.lean ====
section
/-! SUPPORT. The model's own tests: ill-formed commands refused; for each statement with hypotheses a state that meets
them; and steps whose results the spec states. -/

set_option Elab.async false

namespace Sys2Proof.Tests

open Sys2Proof.Machine

/-! ### Fixtures: the window, the map and the moment 0 of the second sequence of 11_worked_sequences.md -/

/-- The layout of the bring-up sequence. -/
def lay : Layout :=
  { n := 64, orderTable := 4096, statusBlock := 20480, vehicleMirror := 20736, zoneMirror := 53504, shelfMirror := 86272,
    staging := 151808, stagingSize := 1048576 }
/-- The window of 4 MiB, before START. -/
def off : State := { State.reset with win := { windowMask := 0xFFFFFFFFFFC00000, windowBase := 0x10000001 } }
/-- RUNNING with an empty map. -/
def on : State := { off with win := { off.win with engine := .running, layout := some lay } }

def node (n bay pos nx : Nat) : Nat × Option NodeEntry := (n, some { homeBay := bay, loopPos := pos, loopNext := nx })
def seg (k f t z : Nat) : Nat × Option SegmentEntry :=
  (k, some { fromNode := f, toNode := t, length := 1000, speed := 1000, zone := z })
def zone (z kind bay merge : Nat) : Nat × Option ZoneEntry := (z, some { kind := kind, bay := bay, merge := merge })
def shelf (i : Nat) : Nat × Option StationEntry :=
  (640 + i, some { kind := 3, node := 523 + i / 4, code := 0x140028 + i, bay := 5, row := i / 4, col := i % 4, initial := 0 })
def route (n b d nx join : Nat) : Nat × Option RouteEntry := (n * 64 + b, some { distance := d, next := nx, join := join })

/-- The map of chapter 11, with the spine closed to a loop 310, 311, 312, 313 and bay 5 left by segment 60. -/
def sections : MapStore :=
  { phase := .opened,
    nodes := [node 310 0 0 40, node 311 0 1000 41, node 312 0 2000 43, node 313 0 3000 39, node 520 5 0 150, node 521 5 1000 151,
      node 522 5 2000 156, node 523 5 3000 152, node 524 5 4000 153, node 525 5 5000 154, node 526 5 6000 155],
    segments := [seg 39 313 310 19, seg 40 310 311 20, seg 41 311 312 21, seg 42 312 520 21, seg 43 312 313 22, seg 60 522 313 84,
      seg 150 520 521 80, seg 151 521 522 81, seg 152 523 524 82, seg 153 524 525 82, seg 154 525 526 83, seg 155 526 520 83,
      seg 156 522 523 81],
    zones := [zone 19 2 0 7, zone 20 1 0 0, zone 21 1 0 0, zone 22 1 0 0, zone 80 2 5 6, zone 81 1 5 0, zone 82 1 5 0,
      zone 83 1 5 0, zone 84 1 0 0],
    merges := [(6, some { parkBranch := 1, zone := 80, predA := 83, predB := 21, convoyLimit := 8000 }),
      (7, some { parkBranch := 0, zone := 19, predA := 22, predB := 84, convoyLimit := 0 })],
    bays := [(0, some ⟨4, {}, 310, 1, 0, 0, 4000, 0, [310, 0, 0, 0, 0, 0, 0, 0]⟩),
      (5, some ⟨3, {}, 520, 2, 3, 4, 7000, 640, [525, 526, 0, 0, 0, 0, 0, 0]⟩)],
    stations := [(377, some { kind := 2, node := 311, code := 0x150000, bay := 0, row := 0, col := 0, initial := 0 }),
      (612, some { kind := 1, node := 522, code := 0x14000C, bay := 5, row := 0, col := 0, initial := 0 })] ++
      (List.range 12).map shelf,
    decodes := [(0, some { bay := 5, first := 600, base := 0x140000, mask := 0xFFFF00, count := 60 }),
      (1, some { bay := 0, first := 377, base := 0x150000, mask := 0xFFFF00, count := 1 })],
    routes := [route 310 5 3000 40 520, route 311 5 2000 41 520, route 312 5 1000 42 520, route 313 5 4000 39 520,
      route 520 0 3000 150 313, route 521 0 2000 151 313, route 522 0 1000 60 313, route 523 0 7000 152 313,
      route 524 0 6000 153 313, route 525 0 5000 154 313, route 526 0 4000 155 313] }

/-- The learned times of the worked score of 02_routes_and_travel_time.md, section 2.4. -/
def times5 : Table (Option SegTimes) :=
  [(39, 1000), (40, 4075), (41, 3000), (42, 1200), (43, 1000), (60, 1000), (150, 2500), (151, 1850), (152, 3100), (153, 2200),
    (154, 2200), (155, 2300), (156, 1000)].map (fun p => (p.1, some { base := 1000, learned := p.2, floor := 500 }))
/-- The map loaded, not committed. -/
def loaded : State := { on with map := sections }
/-- The map committed, the fleet in ASSEMBLY. -/
def com : State :=
  { loaded with
    map := { sections with phase := .committed }, times := times5,
    arbiters := [(6, some { favour := .b, park := .b, limit := 8000 }), (7, some { favour := .a, park := .a, limit := 0 })],
    buf := { racks := [(5, { timer := some 0 })] }, dsp := { agingStart := some 0 } }
/-- Vehicle 51 IDLE at node 310, 13 on segment 150 with zones 80 and 81, 14 with zone 83 waiting for zone 80. -/
def st0 : State :=
  { com with
    flt := { phase := .operating, vehicles :=
      [(13, { state := .toDest, pos := some { standing := none, segment := 150 }, target := some 524, path := [150, 151, 156] }),
       (14, { state := .parking, pool := 5, pos := some { standing := some 526, segment := 154 }, target := some 525,
              path := [155], park := some 525 }),
       (51, { state := .idle, pos := some { standing := some 310, segment := 39 }, park := some 310 })] },
    zones := [(19, { holder := some 51 }), (80, { holder := some 13, waiters := [{ vehicle := 14, since := 0 }] }),
      (81, { holder := some 13 }), (83, { holder := some 14 })],
    arbiters := [(6, some { favour := .a, convoy := .running, start := 0xFFFFF830, park := .b, limit := 8000 }),
      (7, some { favour := .a, park := .a, limit := 0 })],
    buf := { com.buf with shelves := [(640, { sensed := some .present }), (641, { sensed := some .empty })] } }

/-- The next state of a command; the state itself where there is none. -/
def after (i : Instr) (s : State) : State := match exec i s with
  | .next t => t
  | _ => s

/-! ### Ill-formed commands are refused -/

theorem test_wf_register_offset : (Instr.registerWrite 64 0).wf = false ∧ (Instr.registerWrite 12 0).wf = false := by decide
theorem test_wf_window_record :
    [WinRec.slot 1024, .vehicle 256, .zone 1024, .shelf 4096].all (fun r => !(Instr.windowWriteDone r true).wf) = true := by decide
theorem test_wf_read_lengths :
    [Instr.startHeaderReadDone (.data []), .slotReadDone (.data []), .mapLoadEntryReadDone (.data [0]),
      .routePatchEntryReadDone (.data [0])].all (fun i => !i.wf) = true := by decide +kernel
theorem test_wf_slot_number :
    [Instr.mapOpen 1024 0, .mapCommit 1024 0, .fleetOpen 1024 0, .mapLoad 1024 0 0 0 1 0, .routePatch 1024 0 1 0,
      .admitVehicle 1024 0 0 0 0, .retire 1024 0 0, .release 1024 0 0, .locate 1024 0 0 0, .jog 1024 0 0 0, .poolPolicy 1024 0 0 0 0,
      .zoneClose 1024 0 0, .zoneOpen 1024 0 0, .stationState 1024 0 0 0, .move 1024 0 ⟨0, 1, 1, 0, 0, 0, List.replicate 32 0⟩].all
      (fun i => !i.wf) = true := by decide +kernel
theorem test_wf_move_fields :
    [MoveOps.mk 256 1 1 0 0 0 (List.replicate 32 0), ⟨0, 256, 1, 0, 0, 0, List.replicate 32 0⟩,
      ⟨0, 1, 256, 0, 0, 0, List.replicate 32 0⟩, ⟨0, 1, 1, 256, 0, 0, List.replicate 32 0⟩,
      ⟨0, 1, 1, 0, 4294967296, 0, List.replicate 32 0⟩, ⟨0, 1, 1, 0, 0, 4294967296, List.replicate 32 0⟩,
      ⟨0, 1, 1, 0, 0, 0, [0]⟩].all (fun m => !m.wf) = true := by decide
theorem test_wf_map_operands :
    [Instr.mapLoad 0 0 256 0 1 0, .mapLoad 0 0 0 4294967296 1 0, .mapLoad 0 0 0 0 4294967296 0, .mapLoad 0 0 0 0 1 4294967296,
      .routePatch 0 0 4294967296 0, .routePatch 0 0 1 4294967296].all (fun i => !i.wf) = true := by decide +kernel
theorem test_wf_directive_operands :
    [Instr.admitVehicle 0 0 65536 0 0, .admitVehicle 0 0 0 256 0, .admitVehicle 0 0 0 0 65536, .retire 0 0 65536,
      .release 0 0 65536, .locate 0 0 65536 0, .locate 0 0 0 65536, .jog 0 0 65536 0, .jog 0 0 0 65536, .poolPolicy 0 0 256 0 0,
      .poolPolicy 0 0 0 256 0, .poolPolicy 0 0 0 0 256, .zoneClose 0 0 65536, .zoneOpen 0 0 65536, .stationState 0 0 65536 0,
      .stationState 0 0 0 256].all (fun i => !i.wf) = true := by decide +kernel
theorem test_wf_vehicle_frames :
    [Instr.pass 512 0 0 false, .pass 0 65536 0 false, .pass 0 0 65536 false, .arrive 512 0 0 false, .arrive 0 65536 0 false,
      .arrive 0 0 65536 false, .hoistReply 512 0 1 false, .hoistReply 0 256 1 false, .hoistReply 0 0 256 false,
      .hoistEnd 512 0 1 [] false, .hoistEnd 0 256 1 [] false, .hoistEnd 0 0 256 [] false,
      .hoistEnd 0 0 1 (List.replicate 256 0) false, .status 512 0 0 0 0 false, .status 0 256 0 0 0 false,
      .status 0 0 256 0 0 false, .status 0 0 0 256 0 false, .status 0 0 0 0 65536 false].all (fun i => !i.wf) = true := by decide +kernel
theorem test_wf_scan_and_bytes :
    [Instr.scan 512 0 0 true [0] false, .scan 256 256 0 true [0] false, .scan 256 0 256 true [0] false,
      .scan 256 0 0 true [256] false, .scan 256 0 0 true (List.replicate 256 0) false,
      .discardedFrame (List.replicate 262 0) false].all (fun i => !i.wf) = true := by decide +kernel
theorem test_wf_timer_keys :
    [Instr.busyRetryExpiry 256, .busyLimitExpiry 256, .endLimitExpiry 256, .replyWaitExpiry 256, .silenceExpiry 256,
      .stallLimitExpiry 1024 0, .stallLimitExpiry 0 256, .convoyExpiry 256, .rackSilenceExpiry 64].all (fun i => !i.wf) = true := by
  decide
theorem test_wf_accepts_the_widest :
    [Instr.pass 511 65535 65535 true, .registerWrite 56 0, .windowWriteDone (.shelf 4095) false, .retire 1023 0 65535,
      .slotReadDone .error, .discardedFrame [] false].all Instr.wf = true := by decide
/-- The table gives no bits, so no word spells a command (log 39). -/
theorem test_no_word_spells_a_command :
    Sys2Proof.decodeTableWord 8 0 = none ∧ (State.reset.withFetchWord 64 5).pending = [] := by decide

/-! ### Steps, with results from the spec's examples and tables -/

/-- The MOVE of slot 20 (11, second sequence): class 3, station 377 to BAY_BUFFER 5, with a carrier ID. -/
def mv : MoveOps := ⟨3, 1, 2, 3, 0x150000, 5, [1, 2, 3] ++ List.replicate 29 0⟩
/-- Its record while PENDING. -/
def o20 : OrderRec :=
  { seq := 0, cls := 3, source := .station 377, dest := .buffer 5, carrier := some [1, 2, 3], tag := 7, state := .pending,
    taken := some 0 }
/-- At time 40, the order PENDING and scored: the best so far is vehicle 51 at 4,075. -/
def st40 : State :=
  { st0 with
    clock := 40, orders := [(20, some (.move o20))],
    dsp := { st0.dsp with evaluating := true, order := some 20, snapshot := [(51, .direct)], position := some 51 } }
/-- The moment after the scoring. -/
def scored : State := { st40 with dsp := { st40.dsp with position := none, best := some ⟨51, .direct, 4075⟩ } }
/-- Vehicle 51's record on its way to station 377, and while its LOAD runs there. -/
def v51 (st : VState) (h : Option HoistCycle) : Vehicle :=
  { state := st, pos := some { standing := some 311, segment := 40 }, target := some 311, current := some 20, hoist := h }
def load51 (p : HoistPhase) : HoistCycle :=
  { kind := .load, station := 377, carrier := some [1, 2, 3], phase := p, firstSend := some 4310, sentOnce := true }
/-- At time 4,500, the LOAD in a phase, the order PICKING, zone 20 held. -/
def picking (p : HoistPhase) : State :=
  { st0 with
    clock := 4500,
    orders := [(20, some (.move { o20 with state := .picking, vehicle := some 51, chosen := some 641, shelfChosen := true }))],
    flt := { st0.flt with vehicles := tset {} st0.flt.vehicles 51 (v51 .toSource (some (load51 p))) },
    zones := (20, { holder := some 51 }) :: st0.zones.drop 1,
    tsl := { links := [(51, { tag := 1, sends := 1, replyWait := some 4310, silence := some 4300 })] },
    buf := { st0.buf with shelves :=
      [(640, { sensed := some .present }), (641, { sensed := some .empty, logical := .reservedDrop, reserving := some 20 })] } }
def carrier51 : Vehicle :=
  { state := .toDest, pos := some { standing := none, segment := 42, entry := 21100 }, target := some 523, path := [42],
    current := some 20 }
/-- At time 22,000: vehicle 51 carries, on segment 42 in zone 21, and waits for zone 80. -/
def at22 : State :=
  { picking .queued with
    clock := 22000,
    orders := [(20, some (.move { o20 with state := .carrying, vehicle := some 51, chosen := some 641, shelfChosen := true }))],
    flt := { st0.flt with vehicles := tset {} st0.flt.vehicles 51 carrier51 },
    zones := [(21, { holder := some 51 }),
      (80, { holder := some 13, waiters := [{ vehicle := 14, since := 0 }, { vehicle := 51, since := 19000 }] }),
      (81, { holder := some 13 }), (83, { holder := some 14 })] }
/-- The vehicle lost while carrying (11, third sequence) at 24,100: it holds zones 21 and 80 and waits for zone 81. -/
def at24 : State :=
  { at22 with
    clock := 24100,
    flt := { at22.flt with vehicles := tset {} at22.flt.vehicles 51 { veh at22 51 with path := [42, 150] } },
    zones := [(21, { holder := some 51 }), (80, { holder := some 51, waiters := [{ vehicle := 14, since := 0 }] }),
      (81, { holder := some 13, waiters := [{ vehicle := 51, since := 22000 }] }), (83, { holder := some 14 })],
    tsl := { links := [(51, { lastSent := .grant, sentLimit := some 521, silence := some 21100 })] } }

-- 11, bring-up, steps 1 to 3; 10 R199, R200.
theorem test_coldReset : (after (.coldReset true) st0).map.phase = .vacant ∧ (after (.coldReset true) st0).win.cold = true := by decide
theorem test_warmReset : (after (.warmReset 2) st0).win.mapKept = true ∧ (after (.warmReset 2) st0).flt.vehicles = [] := by decide
/-- The header of the bring-up sequence, byte by byte from the layout header of 10, Formats. -/
def header : List Byte :=
  [1, 0, 64, 0, 0, 0x10, 0, 0, 0, 0x50, 0, 0, 0, 0x51, 0, 0, 0, 0xD1, 0, 0, 0, 0x51, 1, 0, 0, 0x51, 2, 0, 0, 0, 0x10, 0] ++
    List.replicate 32 0
theorem test_header_bytes : parseHeader header = (1, lay) := by decide
theorem test_start_reads_header : (after (.start 1) off).win.headerRead = true := by decide
theorem test_start_bad_registers :
    (after (.start 1) State.reset).win.layoutCheck = 1 ∧ (after (.start 1) State.reset).win.engine = .layoutFault := by decide
theorem test_header_checks_pass : layoutCheckOf 4194304 1 lay = 0 := by decide
theorem test_header_n_33 :
    (after (.startHeaderReadDone (.data (header.set 2 33))) (after (.start 1) off)).win.layoutCheck = 4 := by decide +kernel
-- 08 R167, R169.
theorem test_linkHoldSet : (after (.linkHoldSet 0) { at24 with tsl := { at24.tsl with grantQueue := [(51, true)] } }).tsl.grantQueue = [] := by
  decide +kernel
theorem test_linkHoldClear :
    (after (.linkHoldClear 0) { at24 with tsl := { at24.tsl with linkHold := true } }).tsl.grantQueue = [(13, true), (14, true), (51, true)] := by
  decide +kernel
-- 10 R184, R198.
theorem test_manualEnable : (after (.manualEnable 0x10) on).win.manualEnable = true := by decide
theorem test_ce : (after (.ce 0x100) on).win.ce = true := by decide
theorem test_cl_needs_ce :
    let full : State := { on with win := { on.win with log := some ⟨.linkFrame, 0, 0, false⟩ } }
    (after (.cl 0x200) full).win.log ≠ none ∧ (after (.cl 0x200) { full with win := { full.win with ce := true } }).win.log = none := by
  decide +kernel
-- 10, "Example: runs, overflow and the sweep".
theorem test_post_runs :
    ([10, 11, 12, 40, 13].foldl (fun s k => after (.post k) s) on).ink.normal.runs = [⟨10, 3, 0⟩, ⟨40, 1, 0⟩, ⟨13, 1, 0⟩] := by
  decide +kernel
theorem test_post_overflow :
    let s : State := { on with ink := { normal := { runs := (List.range 16).map (fun i => ⟨2 * i, 1, 0⟩) } } }
    (after (.post 50) s).ink.normal.overflow = true ∧ (after (.post 50) s).win.cause.lane = true := by decide +kernel
-- 10 R193, R197.
theorem test_holdRead : (after .holdRead on).out = [.holdValue false] ∧ (after .holdRead on).win.hold = true := by decide
theorem test_holdClear : (after (.holdClear 0) (after .holdRead on)).win.hold = false := by decide
theorem test_causeClear :
    (after (.causeClear 1) { on with win := { on.win with cause := causesOf 0x1F } }).win.cause = causesOf 0x1E := by decide
theorem test_enable_sends :
    (after (.enableWrite 1) { on with win := { on.win with cause := causesOf 3 } }).out = [.message .order] := by decide
-- 10, Formats, WINDOW_BASE: bits 63:20 and 0.
theorem test_registerWrite : (after (.registerWrite 48 0x100ABCDF) on).win.windowBase = 0x10000001 := by decide
-- 10 R185: a failed write is logged with its offset, and raises its causes all the same.
theorem test_windowWriteDone_error :
    let s : State := { on with win := { on.win with jobs := [(.slot 1, ⟨4352, [(0x10001100, [3])], causesOf 1, true, none⟩)] } }
    (after (.windowWriteDone (.slot 1) false) s).win.log = some ⟨.windowFault, 0x30001100, 0, false⟩ ∧
      (after (.windowWriteDone (.slot 1) false) s).win.cause.order = true ∧
      readByte (after (.windowWriteDone (.slot 1) true) s).window 0x10001100 = 3 := by decide +kernel
-- 10 R190: HOT before NORMAL.
theorem test_slotReadStart :
    let s : State := { on with ink := { hot := { runs := [⟨20, 1, 0⟩] }, normal := { runs := [⟨5, 1, 0⟩] } } }
    (after .slotReadStart s).ink.read = some ⟨20, .hot⟩ := by decide
/-- The first 64 bytes of slot 20 as the host fills it (10, Formats, slot). -/
def slot20 : List Byte :=
  [1, 0, 1, 0, 7, 0, 0, 0, 3, 1, 2, 3, 0, 0, 0x15, 0, 5, 0, 0, 0, 1, 2, 3] ++ List.replicate 41 0
/-- A result still owed to a slot. -/
def refusedSlot : SlotDue := { final := some ⟨⟨0, 0, none, none, none, none, none, none, 0⟩, .refused, some .badOperand, 0, 0, .none_, none, none, none, 0⟩ }
theorem test_slot_bytes : (parseSlot slot20).op = .move mv ∧ (parseSlot slot20).state = 1 ∧ (parseSlot slot20).tag = 7 := by decide
theorem test_slotReadDone_takes :
    orderAt (after (.slotReadDone (.data slot20))
      { st0 with ink := { hot := { runs := [⟨20, 1, 0⟩] }, read := some ⟨20, .hot⟩ } }) 20 = some o20 := by decide +kernel
-- 11, second sequence, time 0; 03 R49.
theorem test_move : (orderAt (after (.move 20 7 mv) st0) 20).map rankOf = some 192 := by decide +kernel
-- 10 R193: a read begun before HOLD takes its slot under HOLD, and the write is due.
theorem test_move_refused :
    let s : State := { st0 with win := { st0.win with hold := true },
                                ink := { hot := { runs := [⟨20, 1, 0⟩] }, read := some ⟨20, .hot⟩ } }
    ((slotDueAt (after (.slotReadDone (.data (slot20.take 10 ++ [1, 3, 0, 0, 0x15, 0, 0, 0, 0x15, 0] ++ slot20.drop 20))) s)
      20).final.map (fun f => f.reason)) = some (some .sameLocation) := by decide +kernel
-- 11, bring-up, steps 5 to 9; 01 R14.
theorem test_mapOpen : (after (.mapOpen 0 0) on).map.phase = .opened := by decide +kernel
theorem test_mapLoad_begins : (after (.mapLoad 1 0 1 0 1024 0) loaded).map.run = .loading 0 := by decide +kernel
theorem test_mapLoad_range : (after (.mapLoad 1 0 1 1024 1025 0) loaded).map.run = .idle := by decide +kernel
-- 10, Formats, NODES entry: byte 0 defined, home bay, loop-next, loop position.
theorem test_mapLoadEntry :
    let s : State := { loaded with map := { sections with run := .loading 527, queue := [⟨1, .load 1 527 1 0⟩] } }
    nodeAt (after (.mapLoadEntryReadDone (.data [1, 5, 0x9A, 0, 0x10, 0x27, 0, 0])) s) 527 = some ⟨5, 10000, 154⟩ := by decide +kernel
theorem test_map_valid : validate loaded = none := by decide +kernel
theorem test_mapCommit : (after (.mapCommit 11 0) loaded).map.run = .validating := by decide +kernel
theorem test_commit_clamps_speed :
    let fast : State := { off with map := { sections with
      segments := tset none sections.segments 43 (some { fromNode := 312, toNode := 313, length := 1000, speed := 9000, zone := 22 }),
      run := .validating, queue := [⟨11, .commit⟩] } }
    let t := after .mapCommitValidationDone fast
    t.map.phase = .committed ∧ (segAt t 43).map (fun e => e.speed) = some 6000 ∧
      (arbiterAt t 6).map (fun a => a.favour) = some .b := by decide +kernel
-- 02 R38, R39, R41: an entry is 16 bytes; node 310, bay 5, unreachable.
theorem test_routePatch : (after (.routePatch 2 0 1 0) st0).map.run = .reading [] := by decide +kernel
theorem test_routePatchEntry :
    let s : State := { st0 with map := { st0.map with run := .reading [], queue := [⟨2, .patch 1 0⟩] } }
    (after (.routePatchEntryReadDone (.data ([0x36, 1, 5] ++ List.replicate 13 0))) s).map.run = .checking [⟨310, 5, none⟩] := by
  decide +kernel
theorem test_routePatchCheck :
    let s : State := { st0 with map := { st0.map with run := .checking [⟨310, 5, some ⟨3000, 40, 520⟩⟩], queue := [⟨2, .patch 1 0⟩] } }
    (after .routePatchCheckDone s).map.run = .idle ∧ (after .routePatchCheckDone s).map.routes = st0.map.routes := by decide +kernel
-- 11, bring-up, steps 11 and 14; 05 R96.
theorem test_fleetOpen_refused : (after (.fleetOpen 14 0) loaded).flt.phase = .assembly := by decide +kernel
theorem test_admit :
    let t := after (.admitVehicle 12 0 12 5 151) com
    (veh t 12).state = .parking ∧ (veh t 12).target = some 525 ∧ (zoneRec t 81).holder = some 12 ∧ occupancy t 5 = 1 ∧
      t.tsl.grantQueue = [(12, false)] := by decide +kernel
theorem test_fleetOpen :
    let t := after (.fleetOpen 14 0) (after (.admitVehicle 12 0 12 5 151) com)
    (veh t 12).path = [156, 152, 153] ∧ (zoneRec t 82).holder = some 12 ∧ t.tsl.grantQueue = [(12, true)] := by decide +kernel
-- 05 R98 to R102; 11, third sequence.
theorem test_retire : (veh (after (.retire 30 0 14) st0) 14).retiring = true ∧ (veh (after (.retire 30 0 14) st0) 14).park = none := by
  decide +kernel
theorem test_release_refused :
    (veh (after (.release 31 0 51) { st0 with flt := { st0.flt with vehicles :=
      [(51, { state := .faulted, quarantined := true })] } }) 51).quarantined = true := by decide +kernel
theorem test_jog_disabled : (veh (after (.jog 31 0 51 311) st0) 51).state = .idle := by decide +kernel
theorem test_jog :
    let t := after (.jog 31 0 51 311) { st0 with win := { st0.win with manualEnable := true } }
    (veh t 51).state = .manual ∧ (veh t 51).path = [40] := by decide +kernel
theorem test_poolPolicy : tget {} (after (.poolPolicy 31 0 5 3 20) st0).map.policy 5 = ⟨true, true, 15⟩ := by decide +kernel
-- 06 R134, R135; 09 R171.
theorem test_zoneClose_held : (zoneRec (after (.zoneClose 31 0 80) st0) 80).live = .closing := by decide +kernel
theorem test_zoneClose_free : (zoneRec (after (.zoneClose 31 0 82) st0) 82).live = .closed := by decide +kernel
theorem test_zoneOpen : (zoneRec (after (.zoneOpen 31 0 82) (after (.zoneClose 30 0 82) st0)) 82).live = .opened := by decide +kernel
theorem test_stationState : stationClosed (after (.stationState 31 0 612 1) st0) 612 = true := by decide +kernel
-- 11, second sequence, time 40.
theorem test_evaluationStart :
    (after .evaluationStart { st40 with dsp := { agingStart := some 0 } }).dsp.snapshot = [(51, .direct)] := by decide +kernel
theorem test_scoreStep : (after .scoreStep st40).dsp.best = some ⟨51, .direct, 4075⟩ := by decide +kernel
theorem test_evaluationCompletion :
    let t := after .evaluationCompletion scored
    (orderAt t 20).map (fun o => (o.state, o.chosen)) = some (.assigned, some 641) ∧ (veh t 51).path = [40] ∧
      (veh t 51).target = some 311 ∧ (zoneRec t 20).holder = some 51 ∧ (shelfAt t 641).logical = .reservedDrop := by decide +kernel
-- 02, worked score: 18,825 for vehicle 7 and 14,150 for vehicle 12.
theorem test_score :
    let s : State := { st0 with
      clock := 1800, map := { st0.map with globals := { lendPenalty := 8000, hoistAllowance := 9000 } },
      flt := { st0.flt with vehicles :=
        [(7, { state := .parking, pool := 4, pos := some { standing := none, segment := 40 } }),
         (12, { state := .idle, pool := 5, pos := some { standing := some 523, segment := 156 } })] } }
    score s { o20 with source := .station 612 } 7 .direct = some 18825 ∧
      score s { o20 with source := .station 612 } 12 .direct = some 14150 := by decide +kernel
-- 04 R71.
theorem test_aging : (orderAt (after .agingPeriodExpiry { st40 with clock := 30000 }) 20).map (fun o => o.age) = some 1 := by decide +kernel
-- 11, second sequence, 22,000: vehicle 13 passes 521, and the hot claimant wins zone 80.
theorem test_pass_award :
    let t := after (.pass 13 521 523 false) at22
    (zoneRec t 80).holder = some 51 ∧ (zoneRec t 80).waiters.map (fun w => w.vehicle) = [14] ∧ (veh t 51).path = [42, 150] ∧
      (arbiterAt t 6).map (fun a => (a.favour, a.convoy, a.start)) = some (.b, .running, 22000) ∧ occupancy t 5 = 3 := by
  decide +kernel
-- 11, second sequence, 4,300 to 19,000.
theorem test_arrive :
    let s : State := { picking .queued with
      orders := [(20, some (.move { o20 with state := .assigned, vehicle := some 51 }))],
      zones := st0.zones.take 1 ++ (20, { holder := some 51 }) :: st0.zones.drop 1,
      flt := { st0.flt with vehicles := tset {} st0.flt.vehicles 51 { v51 .toSource none with
        pos := some { standing := some 310, segment := 39 }, path := [40] } } }
    let t := after (.arrive 51 311 311 false) s
    (orderAt t 20).map (fun o => o.state) = some .picking ∧ (zoneRec t 19).holder = none ∧
      (veh t 51).hoist.map (fun h => (h.kind, h.phase)) = some (.load, .queued) ∧ (linkAt t 51).tag = 2 := by decide +kernel
theorem test_hoistReply_accept : (veh (after (.hoistReply 51 1 1 false) (picking .awaiting)) 51).state = .loading := by decide +kernel
theorem test_hoistReply_old_tag : (veh (after (.hoistReply 51 9 1 false) (picking .awaiting)) 51).state = .toSource := by decide +kernel
theorem test_hoistEnd_loaded :
    let t := after (.hoistEnd 51 1 1 [1, 2, 3] false) { picking .accepted with clock := 19000 }
    (orderAt t 20).map (fun o => (o.state, o.loaded)) = some (.carrying, some 19000) ∧ (veh t 51).state = .toDest ∧
      (veh t 51).target = some 523 ∧ (veh t 51).path = [41, 42] ∧ (zoneRec t 80).waiters.map (fun w => w.vehicle) = [14, 51] := by
  decide +kernel
theorem test_hoistEnd_mismatch :
    (orderAt (after (.hoistEnd 51 1 1 [9] false) (picking .accepted)) 20) = none ∧
      (veh (after (.hoistEnd 51 1 1 [9] false) (picking .accepted)) 51).state = .holding := by decide +kernel
-- 08, "Example: authority that does not take": at count 3 the vehicle is FAULTED, AUTH_STALE.
theorem test_status_auth_stale :
    let s : State := { at24 with tsl := { links :=
      [(51, { lastSent := .grant, sentLimit := some 612, grantTime := some 12310, confirm := 3, silence := some 21100 })] } }
    (veh (after (.status 51 1 5 1 605 false) s) 51).state = .faulted ∧
      (linkAt (after (.status 51 0 0 0 612 false) s) 51).confirm = 0 := by decide +kernel
theorem test_status_fault : (veh (after (.status 51 1 5 1 65535 false) at22) 51).fault = .reported 5 := by decide +kernel
-- 09, "Example: a rectangle of readings", and the fourth sequence of 11.
theorem test_rectangle :
    let e : BayEntry := ⟨3, {}, 520, 2, 3, 4, 7000, 640, []⟩
    let scan : Table (Option Nat) := [(0, some 0xA), (1, some 1), (2, some 0xA)]
    infer e scan 0 1 = .ambiguous ∧ infer e scan 0 3 = .ambiguous ∧ infer e scan 2 1 = .ambiguous ∧ infer e scan 2 3 = .ambiguous ∧
      infer e scan 1 0 = .present ∧ infer e scan 1 1 = .empty ∧
      infer e [(0, some 0xA), (1, some 1), (2, some 0)] 0 1 = .present := by decide +kernel
theorem test_scan :
    let t := after (.scan 261 8 0 true [0xA, 1, 0xA] false) st0
    (shelfAt t 641).pending = some .ambiguous ∧ (shelfAt t 641).sensed = some .empty ∧ (rackAt t 5).lastSeq = some 8 ∧
      (rackAt (after (.scan 261 7 0 true [0xA, 1] false) st0) 5).lastSeq = none := by decide +kernel
-- 05 R108, R110: the three timers of the hoist cycle.
theorem test_busyRetry :
    let s : State := { picking .queued with clock := 6500, flt := { st0.flt with vehicles :=
      [(51, v51 .toSource (some { load51 .retryWait with retryFrom := some 4500 }))] } }
    (after (.busyRetryExpiry 51) s).tsl.hoistQueue.map (fun p => (p.1, p.2.tag)) = [(51, 1)] := by decide +kernel
theorem test_busyLimit :
    orderAt (after (.busyLimitExpiry 51) { picking .retryWait with clock := 64310 }) 20 = none := by decide +kernel
theorem test_endLimit :
    let s : State := { picking .accepted with clock := 64500, flt := { st0.flt with vehicles :=
      [(51, v51 .loading (some { load51 .accepted with acceptTime := some 4500 }))] } }
    (veh (after (.endLimitExpiry 51) s) 51).fault = .hoistJam := by decide +kernel
-- 11, third sequence: the stall at 60,000; 07 R143; 08, "A HOIST that goes unanswered"; the loss at 24,100.
theorem test_stallLimit : (zoneRec (after (.stallLimitExpiry 80 14) { at24 with clock := 60000 }) 80).stall = true := by decide +kernel
theorem test_convoy : (arbiterAt (after (.convoyExpiry 6) { st0 with clock := 6000 }) 6).map (fun a => a.convoy) = some .expired := by
  decide +kernel
theorem test_replyWait_resends :
    let t := after (.replyWaitExpiry 51) { picking .awaiting with clock := 4810 }
    t.tsl.hoistQueue.map (fun p => (p.1, p.2.tag)) = [(51, 1)] ∧ (veh t 51).hoist.map (fun h => h.allBusy) = some false := by
  decide +kernel
theorem test_replyWait_third :
    let s : State := { picking .awaiting with clock := 5855, tsl := { links := [(51, { tag := 1, sends := 3, replyWait := some 5355 })] } }
    (veh (after (.replyWaitExpiry 51) s) 51).fault = .noReply ∧ (after (.replyWaitExpiry 51) s).tsl.grantQueue = [(51, false)] := by
  decide +kernel
theorem test_silence :
    let t := after (.silenceExpiry 51) at24
    (veh t 51).state = .lost ∧ orderAt t 20 = none ∧ (shelfAt t 641).logical = .free ∧ (zoneRec t 81).waiters = [] ∧
      (zoneRec t 80).holder = some 51 ∧ occupancy t 5 = 3 := by decide +kernel
theorem test_locate :
    let t := after (.locate 21 0 51 150) (after (.silenceExpiry 51) at24)
    (veh t 51).state = .faulted ∧ (veh t 51).quarantined = true ∧ (veh t 51).fault = .silence ∧ (zoneRec t 21).holder = none ∧
      (zoneRec t 80).holder = some 51 := by decide +kernel
-- 09 R176.
theorem test_rackSilence : (shelfAt (after (.rackSilenceExpiry 5) { st0 with clock := 10000 }) 641).sensed = none := by decide +kernel
-- 08, "Example: alternation under a busy port", first two rows; R161.
def busyPort : State :=
  { picking .queued with tsl := { mark := .hoist, grantQueue := [(13, true), (14, true)],
                                  hoistQueue := [(51, ⟨1, .load, 377, 0x150000, some [1, 2, 3]⟩)] } }
theorem test_transmit_alternates :
    let t := after .transmitStart busyPort
    t.tsl.tx.map (fun x => x.vehicle) = some 13 ∧ t.tsl.mark = .grant ∧
      (after .transmitStart (after .grantSent t)).tsl.tx.map (fun x => x.vehicle) = some 51 := by decide +kernel
theorem test_grantSent : (linkAt (after .grantSent (after .transmitStart busyPort)) 13).sentLimit = some 523 := by decide +kernel
theorem test_hoistSent :
    let s : State := { busyPort with tsl := { busyPort.tsl with grantQueue := [], tx := some ⟨51, .hoist ⟨1, .load, 377, 0x150000, none⟩, false⟩ } }
    (veh (after .hoistSent s) 51).hoist.map (fun h => h.phase) = some .awaiting ∧ (linkAt (after .hoistSent s) 51).sends = 1 := by
  decide +kernel
theorem test_standSent :
    (linkAt (after .standSent { at24 with tsl := { tx := some ⟨51, .stand, false⟩ } }) 51).lastSent = .stand := by decide +kernel
-- 08 R152: the check of the digits 1 to 9; R155: a frame too short is a LINK_FRAME.
theorem test_crc : crc16 [0x31, 0x32, 0x33, 0x34, 0x35, 0x36, 0x37, 0x38, 0x39] = 0x29B1 := by decide +kernel
theorem test_discardedFrame : ((after (.discardedFrame [0, 1, 2, 3, 4] false) on).win.log.map (fun r => r.kind)) = some .linkFrame := by
  decide +kernel
-- 02 R36, worked figures.
theorem test_learn :
    [learn 4000 2000 4600, learn 4000 2000 3000, learn 4000 2000 65535, learn 520 500 100, learn 1500 750 0] =
      [4075, 3875, 11692, 500, 1313] := by decide
-- 01 R9, the decode table's examples.
theorem test_decode :
    let s : State := { on with map := { phase := .committed, stations := [(635, some ⟨1, 522, 0x140023, 5, 0, 0, 0⟩)], decodes :=
      [(2, some { bay := 5, first := 600, base := 0x140000, mask := 0xFFFF00, count := 40 }),
       (5, some { bay := 5, first := 700, base := 0x140000, mask := 0xFF0000, count := 256 })] } }
    decodeCode s 0x140023 = some 635 ∧
      [0x14002A, 0x1401A0, 0x140110, 0x1400FF, 0x150023].all (fun c => decide (decodeCode s c = none)) = true := by decide

/-! ### What an event changes on its way, and what waits behind another write -/

-- 05 R95: a JOG to the standing node takes the record to MANUAL and back; each change raises FLEET.
theorem test_jog_in_place :
    let t := after (.jog 31 0 51 310) { st0 with win := { st0.win with manualEnable := true } }
    (veh t 51).state = .idle ∧ (findJob t (.vehicle 51)).map (fun j => j.causes.fleet) = some true := by decide +kernel
-- 02 R35: a vehicle retired on its way hands on no measurement.
theorem test_retire_measures_nothing :
    let s : State := { st0 with flt := { st0.flt with
      vehicles := tset {} st0.flt.vehicles 14 { veh st0 14 with pos := some ⟨none, 154, 0, true⟩ } } }
    (veh (after (.retire 30 0 14) s) 14).pos.map (fun p => p.measurable) = some false := by decide +kernel
/-- Vehicle 51, of pool 5, stands at 310, sent to station 377, and has waited for zone 20 since 5; a cancel check is read. -/
def recalled : State :=
  { st0 with
    orders := [(63, some (.move { o20 with state := .assigned, vehicle := some 51 }))],
    flt := { st0.flt with vehicles :=
      [(13, veh st0 13), (51, { state := .toSource, pool := 5, pos := some ⟨some 310, 39, 0, false⟩, target := some 311, current := some 63 })] },
    zones := [(19, { holder := some 51 }), (20, { holder := some 13, waiters := [{ vehicle := 51, since := 5 }] })],
    ink := { hot := { runs := [⟨63, 1, 0⟩] }, read := some { slot := 63, origin := .hot } } }
-- 06 R127: its order cancelled, it parks at 525, whose first segment lies in zone 20 too: the wait is kept.
theorem test_cancel_keeps_the_wait :
    let t := after (.slotReadDone (.data ([2, 1, 1, 0] ++ List.replicate 60 0))) recalled
    (veh t 51).state = .parking ∧ (veh t 51).target = some 525 ∧ (zoneRec t 20).waiters = [{ vehicle := 51, since := 5 }] := by
  decide +kernel
-- 10 R194: the deferred writes are made one at a time; HOLD set again stops those not begun.
theorem test_hold_again :
    let s : State := { on with win := { on.win with hold := true, deferred := [(.vehicle 5, {}), (.shelf 4095, {})] } }
    let t := after .holdRead (after (.holdClear 0) s)
    t.win.jobs.map (fun p => p.1) = [.vehicle 5] ∧
      (after (.windowWriteDone (.vehicle 5) true) t).win.deferred = [(.shelf 4095, {})] ∧
      (after (.windowWriteDone (.vehicle 5) true) (after (.holdClear 0) s)).win.jobs.map (fun p => p.1) = [.shelf 4095] := by decide +kernel
-- 10 R193: the order of slot 20 ended under HOLD; the slot, read POSTED, is taken again: TAKEN is due, not the old result.
theorem test_taken_again :
    let s : State := { st0 with win := { st0.win with hold := true, slotDue := [(20, refusedSlot)] },
                                ink := { hot := { runs := [⟨20, 1, 0⟩] }, read := some ⟨20, .hot⟩ } }
    slotDueAt (after (.slotReadDone (.data slot20)) s) 20 = { taken := true } := by decide +kernel
-- 10 R185, 01 R16: a staging read is tested as it is made: outside the window it ends the load at once; made inside, its data
-- is taken though the range enable has been cleared meanwhile, and the next read, made then, ends the load.
theorem test_staging_read_outside :
    let out (s : State) : State := { s with win := { s.win with windowBase := 0x10000000 } }
    let t := after (.mapLoad 1 0 1 0 1024 8) (out loaded)
    let busy (i : Nat) : State := out { loaded with map := { sections with run := .loading i, queue := [⟨1, .load 1 526 2 0⟩] } }
    let data : ReadResult := .data [1, 5, 0x9A, 0, 0x10, 0x27, 0, 0]
    t.map.run = .idle ∧ t.win.log.map (fun r => (r.kind, r.detail)) = some (.windowFault, 1 * 2 ^ 28 + 151816) ∧
      (after (.mapLoadEntryReadDone data) (busy 527)).win.log = none ∧
      nodeAt (after (.mapLoadEntryReadDone data) (busy 527)) 527 = some ⟨5, 10000, 154⟩ ∧
      nodeAt (after (.mapLoadEntryReadDone data) (busy 526)) 526 = none := by decide +kernel
-- 10 R196, R198: a log filled and emptied while its write is deferred: the write raises no ERROR.
theorem test_emptied_log_raises_nothing :
    let s : State := { on with win := { on.win with hold := true, ce := true, log := some ⟨.linkFrame, 0, 0, false⟩,
                                                    errorDue := true, deferred := [(.status, {})] } }
    let t := after (.windowWriteDone .status true) (after (.holdClear 0) (after (.cl 0x300) s))
    let u := after (.windowWriteDone .status true) (after (.holdClear 0) s)
    t.win.log = none ∧ t.win.jobs = [] ∧ t.win.cause.error = false ∧ u.win.cause.error = true := by decide +kernel
-- 10 R185, R196: a write that fails fills the log, and the status block's deferred write, begun then, carries the record: CL
-- does not take its ERROR back, and the write that the change of the log itself calls for raises none.
theorem test_failed_write_then_status :
    let s : State := { on with win := { on.win with deferred := [(.status, {})], jobs := [(.slot 63, ⟨20224, [], {}, true, none⟩)] } }
    let t := after (.windowWriteDone (.slot 63) false) s
    let u := after (.windowWriteDone .status true) (after (.cl 0x300) { t with win := { t.win with ce := true } })
    let v := after (.windowWriteDone .status true) (after (.causeClear 8) u)
    t.win.jobs.map (fun p => (p.1, p.2.causes.error)) = [(.status, true)] ∧ u.win.log = none ∧ u.win.cause.error = true ∧
      v.win.jobs = [] ∧ v.win.cause.error = false := by decide +kernel
-- 10 R185, R197: the write of a slot's result outside the window is dropped and logged; its ORDER is raised all the same.
theorem test_slot_write_outside :
    let s : State := { on with win := { on.win with windowBase := 0, hold := true, slotDue := [(63, refusedSlot)],
                                                    deferred := [(.slot 63, {})] } }
    let t := after (.holdClear 0) s
    t.win.jobs = [] ∧ t.win.log.map (fun r => r.detail) = some (5 * 2 ^ 28 + 20224) ∧ t.win.cause.order = true := by decide +kernel
-- 05 R107, 03 R61: a HOIST sent again while the send before it has no answer: not every send has been answered BUSY.
theorem test_sent_again_without_answer :
    let tx : Tsl := { tx := some ⟨51, .hoist ⟨1, .load, 377, 0x150000, none⟩, false⟩ }
    let mark (p : HoistPhase) : Option Bool := (veh (after .hoistSent { picking p with tsl := tx }) 51).hoist.map (fun h => h.allBusy)
    mark .awaiting = some false ∧ mark .queued = some true := by decide +kernel
-- 10 R185, R187, R196: RUNNING is entered with the range enable clear: the full write is dropped and logged, ERROR raised.
theorem test_full_write_outside :
    let s : State := { on with win := { on.win with windowBase := 0x10000000 } }
    let t := settleLog 4 none ([WinRec.vehicle 0, .vehicle 1, .status].foldl (fun t r => schedule r {} t) s)
    t.win.log.map (fun r => (r.detail, r.more)) = some (5 * 2 ^ 28 + 20736, true) ∧ t.win.cause.error = true := by decide +kernel
-- 08 R157, R161: a HOIST whose cycle has ended counts as a send and starts no reply wait.
theorem test_hoistSent_no_wait :
    let l := linkAt (after .hoistSent { on with tsl := { tx := some ⟨51, .hoist ⟨1, .load, 377, 0x150000, none⟩, true⟩ } }) 51
    l.sends = 1 ∧ l.replyWait = none := by decide +kernel

/-! ### States that meet the hypotheses of the statements -/

/-- A state with canonical records is sound. -/
theorem sound_of (s : State)
    (h : (memoryWf s.window && tableWf none s.orders && tableWf {} s.flt.vehicles && tableWf {} s.zones && tableWf {} s.buf.shelves &&
      tableWf {} s.tsl.links && [s.ink.hot, s.ink.normal].all (fun l => decide (l.runs.length ≤ 16 ∧ ∀ r ∈ l.runs, r.done < r.count ∧ r.count ≤ 64)) && decide (upperBits s.win.windowMask = s.win.windowMask) &&
      decide (upperBits s.win.windowBase ||| (if s.win.windowBase.getLsbD 0 then 1 else 0) = s.win.windowBase) &&
      decide (s.win.layoutCheck ≤ 7) && decide (s.win.deferred.map (fun p => p.1)).Nodup && !s.tsl.linkHold) = true) : Sound s := by
  simp only [Bool.and_eq_true, decide_eq_true_eq, Bool.not_eq_true', List.all_cons, List.all_nil, and_true] at h
  obtain ⟨⟨⟨⟨⟨⟨⟨⟨⟨⟨⟨h1, h2⟩, h3⟩, h4⟩, h5⟩, h6⟩, h7⟩, h8⟩, h9⟩, h10⟩, h11⟩, h12⟩ := h
  exact ⟨h1, h2, h3, h4, h5, h6, h7.1, h7.2, h8, h9, h10, h11, by simp [h12]⟩

def job63 : Job := { offset := 20224, parts := [(0x10004F00, [3, 4])], causes := {}, stateField := true, again := none }
/-- A write of slot 63 in progress. -/
def writing : State := { on with win := { on.win with jobs := [(.slot 63, job63)] } }
/-- HOLD set, with deferred writes of the last slot and the last shelf. -/
def holding : State :=
  { on with win := { on.win with hold := true, deferred := [(.slot 63, {}), (.shelf 4095, {})] } }
/-- The read of the last slot in flight, named by a lane or the sweep. -/
def reading (g : Origin) : State :=
  { st0 with ink := { hot := { runs := [⟨63, 1, 0⟩], overflow := true }, normal := { runs := [⟨63, 1, 0⟩] },
                      sweep := some { position := 63 }, read := some { slot := 63, origin := g } } }
/-- A MOVE of slot 63 in a state. -/
def live (st : OrderState) : State := { reading .hot with orders := [(63, some (.move { o20 with state := st }))] }
/-- Slot bytes with a state, a cancel byte and a kind. -/
def bytes (state cancel kind : Byte) : List Byte := [state, cancel, kind, 0, 7, 0, 0, 0] ++ List.replicate 56 0
/-- The last vehicle, IDLE without a path. -/
def last255 (st : VState) : State := { st0 with flt := { st0.flt with vehicles := [(255, { state := st })] } }

theorem wit_EveryStepKeepsTheStateSound :
    Sound { on with pending := [.post 63] } ∧ ∃ t, step { on with pending := [.post 63] } = .next t := ⟨sound_of _ (by decide), _, rfl⟩
/-- ColdResetGivesTheColdState, WarmResetKeepsACommittedMap, StepRunsTheFrontCommand: no write in progress; or addresses
just outside the part of one. -/
theorem wit_Resets :
    on.win.jobs = [] ∧ committed st0 = true ∧
      [0x10004EFF, 0x10004F02].all (fun a => writing.win.jobs.all (fun j => !covers j.2.parts a)) = true := by decide
theorem wit_HoldDefersEveryWrite :
    on.win.engine = .running ∧ holding.win.engine = .running ∧ holding.win.hold = true ∧ holding.win.log = on.win.log ∧
      tableWf {} on.win.slotDue = true ∧ tableWf {} [(63, ({ taken := true } : SlotDue))] = true ∧
      slotDueAt { on with win := { on.win with slotDue := [(63, { taken := true })] } } 63 ≠ {} := by decide
/-- The same statement, the records that fall due: between two moments of the second sequence of 11 a vehicle, a zone, an
arbiter, a shelf, a station and an occupancy differ; a committed map and one that is not. -/
theorem wit_HoldDefersEveryWrite_dues :
    let shut : State := { at22 with map := { at22.map with liveClosed := [(640, true)] } }
    let stalled : State := { at22 with zones := tset {} at22.zones 80 { zoneRec at22 80 with waiters :=
      [{ vehicle := 14, since := 0, stalled := true }, { vehicle := 51, since := 19000 }] } }
    let park : State := { at22 with arbiters := [] }
    Sound at22 ∧ Sound at24 ∧ Sound shut ∧ Sound stalled ∧ Sound park ∧ Sound st0 ∧ committed at22 = committed at24 ∧
      veh at22 51 ≠ veh at24 51 ∧ zoneRec at22 80 ≠ zoneRec at24 80 ∧ zoneRec stalled 80 ≠ zoneRec at22 80 ∧
      tableWf none at22.arbiters = true ∧ arbiterAt at22 6 ≠ arbiterAt park 6 ∧ (mergeAt park 6).map (fun e => e.zone) = some 80 ∧
      shelfAt st0 641 ≠ shelfAt at22 641 ∧ isShelf shut 640 = true ∧ stationClosed at22 640 ≠ stationClosed shut 640 ∧
      tableWf false at22.map.liveClosed = true ∧ tableWf false shut.map.liveClosed = true ∧ committed loaded ≠ committed com ∧
      at22.map.zones = at24.map.zones ∧ occupancy at22 5 ≠ occupancy at24 5 := by
  refine ⟨sound_of _ ?_, sound_of _ ?_, sound_of _ ?_, sound_of _ ?_, sound_of _ ?_, sound_of _ ?_, ?_⟩ <;> decide +kernel
/-- The same statement, the progress of a live MOVE (03 R53): its state, its shelf, a timestamp. -/
theorem wit_HoldDefersEveryWrite_progress :
    Sound (live .assigned) ∧ Sound (live .picking) ∧ orderAt (live .assigned) 63 = some { o20 with state := .assigned } ∧
      orderAt (live .picking) 63 = some { o20 with state := .picking } ∧ OrderState.assigned ≠ .picking :=
  ⟨sound_of _ (by decide), sound_of _ (by decide), by decide⟩
/-- A write that begins: the status block, the last vehicle and shelf, and a slot that owes TAKEN, or its result. -/
theorem wit_AWriteThatBegins :
    let owes (d : SlotDue) : State := { on with
      orders := [(63, some (.move o20))], win := { on.win with slotDue := [(63, d)] } }
    let outside : State := { on with win := { on.win with windowBase := 0 } }
    Sound on ∧ Sound outside ∧ on.win.layout = some lay ∧ on.win.hold = false ∧ on.win.deferred = [] ∧
      ([on.win.vehicleRev, on.win.zoneRev, on.win.shelfRev].all (tableWf 0) && tableWf {} on.win.slotDue) = true ∧
      [WinRec.status, .vehicle 255, .zone 1023, .shelf 4095, .slot 63].all (fun r => decide (findJob on r = none) &&
        accessOk on (recordOffset lay r) (recordSize r) && !accessOk outside (recordOffset lay r) (recordSize r)) = true ∧
      Sound (owes { taken := true }) ∧ (slotDueAt (owes { taken := true }) 63).final = none ∧
      liveAt (owes { taken := true }) 63 = some (.move o20) ∧ (slotDueAt (owes refusedSlot) 63).final ≠ none ∧ on.win.log = none ∧
      Sound (logError .linkFrame 0 on) ∧ (logError .linkFrame 0 on).win.log ≠ none ∧
      (logError .linkFrame 0 on).win.errorDue = true :=
  ⟨sound_of _ (by decide), sound_of _ (by decide), rfl, rfl, rfl, by decide, by decide, sound_of _ (by decide), by decide, by decide, by decide, rfl,
    sound_of _ (by decide), by decide⟩
theorem wit_AWriteThatCompletesReachesMemory :
    Quiet writing ∧ findJob writing (.slot 63) = some job63 ∧ covers job63.parts 0x10004EFF = false ∧
      covers job63.parts 0x10004F02 = false ∧ ∃ t, exec (.windowWriteDone (.slot 63) true) writing = .next t :=
  ⟨rfl, rfl, by decide, by decide, _, rfl⟩
theorem wit_CausesAndTheErrorLog :
    (logError .linkFrame 0 on).win.log.isSome = true ∧ on.win.log = none ∧ on.win.engine = .running ∧ off.win.log = none ∧
      off.win.engine ≠ .running := by decide
/-- ControlTakesItsWrittenValues, StartReadsTheHeader, LinkHoldSilencesAndResumesTheLink, RegisterWritesKeepTheNamedBits; and Quiet alone,
for APostJoinsItsLane, HoldIsSetByAReadAndClearedByAWrite, CausesAndTheErrorLog and PeriodsAndLimitsExpire. -/
theorem wit_Control :
    Quiet on ∧ Quiet off ∧ Sound on ∧
      [0x310#64, 0x110#64].all (fun w => !w.getLsbD 1 && !w.getLsbD 0 && decide (w.getLsbD 5 = on.tsl.linkHold)) = true ∧
      (0x111#64).getLsbD 1 = false ∧ (0x111#64).getLsbD 9 = false ∧ (0x111#64).getLsbD 5 = off.tsl.linkHold ∧
      (0x130#64).getLsbD 9 = false ∧ (0x130#64).getLsbD 0 = false ∧ (0x130#64).getLsbD 1 = false ∧
      (0xFFFFFFFFFFFFFFFF#64).getLsbD 1 = true :=
  ⟨rfl, rfl, sound_of _ (by decide), by decide⟩
def silent : State := { on with tsl := { linkHold := true } }
/-- LINK_HOLD set and clear. -/
theorem wit_LinkHoldSilencesAndResumesTheLink : Quiet silent ∧ Sound silent ∧ silent.tsl.linkHold = true ∧ Quiet at24 ∧ Sound at24 ∧ at24.tsl.linkHold = false :=
  ⟨rfl, ⟨by decide, by decide, by decide, by decide, by decide, by decide, ⟨by decide, by decide⟩, ⟨by decide, by decide⟩,
    by decide, by decide, by decide, by decide, by decide⟩, rfl, rfl, sound_of _ (by decide), rfl⟩
theorem wit_TheHeaderIsCheckedInOrder :
    let s : State := { off with win := { off.win with headerRead := true } }
    let cut : State := { on with win := { on.win with windowBase := 0x10000000 } }
    Quiet s ∧ s.win.engine ≠ .running ∧ s.win.headerRead = true ∧ on.win.layout = some lay ∧ rangeEnable on = true ∧
      registersValid cut = true ∧ rangeEnable cut = false ∧ cut.win.layout = some lay ∧ cut.win.engine = .running ∧
      cut.win.hold = false ∧ cut.win.jobs = [] ∧ cut.win.deferred = [] ∧ cut.win.errorDue = false ∧ cut.win.log = none ∧
      on.win.hold = false ∧ holding.win.hold = true ∧ holding.win.layout = some lay :=
  ⟨rfl, by decide, rfl, rfl, by decide⟩
/-- HoldIsSetByAReadAndClearedByAWrite: a deferred write that can begin, one behind a write in progress, one outside the window. -/
theorem wit_HoldIsClearedByAWrite :
    let freed : State := { holding with win := { holding.win with hold := false } }
    let behind : State := { freed with win := { freed.win with jobs := [(.slot 63, job63)] } }
    let outside : State := { freed with win := { freed.win with windowBase := 0, deferred := [(.shelf 4095, {})] } }
    let logged : State := logError .linkFrame 0 { freed with win := { freed.win with deferred := [(.status, {})] } }
    let cut : State := { freed with win := { freed.win with windowBase := 0, slotDue := [(63, refusedSlot)] } }
    cut.win.deferred = [(.slot 63, {}), (.shelf 4095, {})] ∧ findJob cut (.slot 63) = none ∧ (slotDueAt cut 63).final.isSome = true ∧
    accessOk cut (recordOffset lay (.slot 63)) (recordSize (.slot 63)) = false ∧
    logged.win.deferred = [(.status, {})] ∧ logged.win.errorDue = true ∧ logged.win.log.isSome = true ∧ findJob logged .status = none ∧
    Quiet holding ∧ Sound holding ∧ holding.win.engine = .running ∧ holding.win.hold = true ∧ holding.win.layout = some lay ∧
      holding.win.deferred = [(.slot 63, {}), (.shelf 4095, {})] ∧ tableWf {} holding.win.slotDue = true ∧
      findJob holding (.slot 63) = none ∧ accessOk holding (recordOffset lay (.slot 63)) 256 = true ∧ recordSize (.slot 63) = 256 ∧
      findJob behind (.slot 63) = some job63 ∧ findJob outside (.shelf 4095) = none ∧
      accessOk outside (recordOffset lay (.shelf 4095)) (recordSize (.shelf 4095)) = false :=
  ⟨rfl, rfl, by decide, by decide, rfl, rfl, rfl, rfl, rfl, sound_of _ (by decide), rfl, rfl, rfl, rfl, by decide⟩
theorem wit_TheNextSlotIsRead :
    let s : State := { reading .hot with ink := { (reading .hot).ink with read := none } }
    let outside : State := { s with win := { s.win with windowBase := 0 } }
    Quiet s ∧ s.ink.read = none ∧ s.win.hold = false ∧ s.win.engine = .running ∧ stateWritePending s 63 = false ∧
      accessOk s (slotOffset s 63) 64 = true ∧ stateWritePending writing 63 = true ∧ accessOk outside (slotOffset outside 63) 64 = false :=
  ⟨rfl, by decide⟩
theorem wit_AReadThatTakesNothingConsumesItsNotice :
    let s := reading .hot
    Quiet s ∧ s.ink.hot.runs = [⟨63, 1, 0⟩] ∧ s.ink.normal.runs = [⟨63, 1, 0⟩] ∧ (reading .normal).ink.read = some ⟨63, .normal⟩ ∧
      s.ink.sweep = some { position := 63 } ∧ s.ink.read = some ⟨63, .hot⟩ ∧
      s.win.hold = false ∧ liveAt s 63 = none ∧ (parseSlot (bytes 0 0 1)).state ≠ 1 ∧
      ({ s with win := { s.win with hold := true } } : State).win.hold = true :=
  ⟨rfl, by decide⟩
theorem wit_APostedSlotIsTaken :
    let s := reading .sweep
    let s1 := consume .sweep { s with ink := { s.ink with read := none } }
    Quiet s ∧ s.ink.read = some ⟨63, .sweep⟩ ∧ liveAt s 63 = none ∧ (parseSlot (bytes 1 0 6)).state = 1 ∧
      (parseSlot (bytes 1 0 6)).cancel = 0 ∧ (parseSlot (bytes 1 255 6)).cancel ≠ 0 ∧ (parseSlot (bytes 1 255 6)).op = .fleetOpen ∧
      (parseSlot (bytes 1 255 1)).op = .move ⟨0, 0, 0, 0, 0, 0, List.replicate 32 0⟩ ∧ (parseSlot (bytes 1 0 0)).op = .unknown 0 ∧
      (parseSlot (bytes 1 0 16)).op = .unknown 16 ∧ takeable s1 63 = true ∧ takeable st0 64 = false :=
  ⟨rfl, by decide⟩
/-- ACancelCheckActsByTheOrderState, ASSIGNED; a map directive that waits, one at the head, and another directive. -/
theorem wit_ACancelCheck_others :
    let s (q : List MapDir) : State := { reading .hot with
      orders := [(63, some (.directive ⟨2, 7, 0, 0⟩))], map := { st0.map with queue := q, run := .validating } }
    Quiet recalled ∧ recalled.win.hold = false ∧ recalled.ink.read = some ⟨63, .hot⟩ ∧
      orderAt recalled 63 = some { o20 with state := .assigned, vehicle := some 51 } ∧
      (s []).agenda = [] ∧ (s []).win.hold = false ∧ (s []).ink.read = some ⟨63, .hot⟩ ∧
      liveAt (s []) 63 = some (.directive ⟨2, 7, 0, 0⟩) ∧ (∀ e ∈ (s []).map.queue, e.slot ≠ 63) ∧
      (s [⟨62, .commit⟩, ⟨63, .opening⟩]).map.queue = [⟨62, .commit⟩, ⟨63, .opening⟩] ∧
      (s [⟨63, .commit⟩]).map.queue = [⟨63, .commit⟩] := by
  refine ⟨rfl, ?_⟩; decide
theorem wit_ACancelCheckActsByTheOrderState :
    [OrderState.picking, .carrying, .placing, .pending, .chained].all (fun st =>
      decide ((live st).agenda = []) && !(live st).win.hold && decide ((live st).ink.read = some ⟨63, .hot⟩) &&
        decide (orderAt (live st) 63 = some { o20 with state := st })) = true ∧
      (parseSlot (bytes 2 255 1)).state = 2 ∧ (parseSlot (bytes 2 255 1)).cancel ≠ 0 ∧ (parseSlot (bytes 1 0 1)).cancel = 0 := by
  decide
/-- The premises of every order's row (AMoveIsRefusedByTheFirstCondition, AnAcceptedMoveIsLive, DirectivesThatEndAtOnce,
AdmitPlacesTheVehicle, RetireEndsTheRecord, LocatePlacesTheRecord, JogSendsTheVehicle, ZoneDirectivesCloseAndOpen): the last
slot can be taken, under a map that is committed. -/
theorem wit_Takeable : Quiet st0 ∧ takeable st0 63 = true ∧ committed st0 = true := ⟨rfl, by decide⟩
theorem wit_AMoveIsRefusedByTheFirstCondition :
    badMove st0 mv = false ∧ moveSource st0 mv = some (.station 377) ∧ decodeCode st0 mv.srcValue = some 377 ∧
      moveDest st0 mv = some (.buffer 5) ∧
      (∀ v ∈ [255], (veh st0 v).state ≠ .holding) ∧ decodeCode st0 0x14000C = some 612 := by decide +kernel
def carrying : State := { st0 with flt := { st0.flt with vehicles := [(255, { state := .holding, pos := some ⟨some 311, 40, 0, false⟩ })] } }
def mvVehicle (kind value : Nat) : MoveOps := { mv with srcKind := 3, srcValue := 255, dstKind := kind, dstValue := value }
theorem wit_AnAcceptedMoveIsLive :
    placeRefusal st0 (.station 377) (.buffer 5) = none ∧
      Quiet carrying ∧ takeable carrying 63 = true ∧ badMove carrying (mvVehicle 2 5) = false ∧
      moveDest carrying (mvVehicle 2 5) = some (.buffer 5) ∧ placeRefusal carrying (.vehicle 255) (.buffer 5) = none ∧
      dropChoice carrying 5 = some 641 ∧ stationNode carrying 641 = some 523 ∧
      moveDest carrying (mvVehicle 1 0x14000C) = some (.station 612) ∧ placeRefusal carrying (.vehicle 255) (.station 612) = none ∧
      stationNode carrying 612 = some 522 ∧ dropChoice { carrying with buf := {} } 5 = none :=
  ⟨by decide +kernel, rfl, by decide +kernel⟩
theorem wit_MapDirectivesQueueAndRun :
    let cut (s : State) : State := { s with win := { s.win with windowBase := 0x10000000 } }
    Quiet loaded ∧ takeable loaded 63 = true ∧ loaded.map.queue = [] ∧ loaded.map.run = .idle ∧
      accessOk loaded (stagingOffset loaded 0) 8 = true ∧ takeable (cut loaded) 63 = true ∧
      accessOk (cut loaded) (stagingOffset (cut loaded) 0) 8 = false ∧ takeable (cut st0) 63 = true ∧ (cut st0).map.queue = [] ∧
      accessOk (cut st0) (stagingOffset (cut st0) 0) 16 = false :=
  ⟨rfl, by decide⟩
/-- ALoadedEntryIsWrittenAsStaged, at the last entry of its section and at one before it, the next read inside the window and
outside; ARoutePatchIsAppliedWholeOrNotAtAll, at the most entries. -/
theorem wit_MapWork :
    let loading : State := { loaded with map := { sections with run := .loading 2047, queue := [⟨63, .load 1 2047 1 0⟩] } }
    let patch (r : MapRun) : State := { st0 with map := { st0.map with run := r, queue := [⟨63, .patch 256 0⟩] } }
    Quiet loading ∧ loading.map.run = .loading 2047 ∧ loading.map.queue = [⟨63, .load 1 2047 1 0⟩] ∧
      Quiet (patch (.reading [])) ∧ (patch (.reading [])).map.run = .reading [] ∧ (patch (.checking [])).map.run = .checking [] ∧
      (patch (.checking [])).map.queue = [⟨63, .patch 256 0⟩] ∧ ¬ 2046 + 2 ≤ 2046 + 1 ∧ 2047 + 1 ≤ 2047 + 1 ∧
      accessOk loading (stagingOffset loading (0 + 1 * 8)) 8 = true ∧
      accessOk { loading with win := { loading.win with windowBase := 0 } } (stagingOffset loading (0 + 1 * 8)) 8 = false :=
  ⟨rfl, rfl, rfl, rfl, rfl, rfl, rfl, by decide⟩
theorem wit_ACommitTakesEffectWhole :
    let s : State := { loaded with map := { sections with run := .validating, queue := [⟨63, .commit⟩] } }
    Quiet s ∧ s.map.run = .validating ∧ s.map.queue = [⟨63, .commit⟩] ∧ validate s = none :=
  ⟨rfl, rfl, rfl, by decide +kernel⟩
theorem wit_AValidMapDecodesEveryStation :
    validate loaded = none ∧ (stationAt loaded 651).map (fun e => e.kind) = some 3 ∧ (bayAt loaded 5).isSome = true ∧
      homeBay loaded 526 = some 5 ∧ (segAt loaded 156).isSome = true ∧ tableWf none loaded.map.segments = true ∧
      tableWf none loaded.map.zones = true ∧ (zoneAt loaded 80).map (fun e => e.kind) = some 2 ∧
      (zoneAt loaded 84).map (fun e => e.kind) = some 1 ∧ (mergeAt loaded 7).isSome = true ∧
      (tget none loaded.map.decodes 1).isSome = true ∧ (routeAt loaded 312 5).isSome = true ∧ homeBay loaded 312 ≠ some 5 ∧
      (routeAt loaded 310 5).isSome = true ∧ 651 ∈ rackShelves ⟨3, {}, 520, 2, 3, 4, 7000, 640, []⟩ := by decide +kernel
theorem wit_AnEvaluationStartsWithTheFirstFreshOrder :
    let s : State := { st40 with dsp := {} }
    Quiet s ∧ s.dsp.evaluating = false ∧ s.win.hold = false ∧ s.flt.phase = .operating ∧ patchWaits s = false ∧
      firstFresh s = some (20, o20) ∧ eligible s o20 = true ∧ snapshot s o20 = [(51, .direct)] ∧ orderAt s 20 = some o20 ∧
      eligible { s with buf := {} } o20 = false ∧ st40.dsp.evaluating = true :=
  ⟨rfl, by decide +kernel⟩
theorem wit_AScoreStepKeepsTheBetterCandidate :
    Quiet st40 ∧ st40.dsp.order = some 20 ∧ orderAt st40 20 = some o20 ∧ st40.dsp.position = some 51 ∧
      st40.dsp.snapshot.find? (fun p => decide (p.1 = 51)) = some (51, .direct) := ⟨rfl, by decide +kernel⟩
/-- An order between ports, scored for a direct and for a chain candidate. -/
def ports (b : Best) (n : Nat) : State :=
  { scored with
    orders := [(20, some (.move { o20 with source := .station 377, dest := .station 612 }))],
    map := { scored.map with globals := { chainWindow := 65535 } },
    dsp := { scored.dsp with best := some b, restarts := n } }
theorem wit_ACompletedPassAssignsEndsOrRestarts :
    let s := ports ⟨51, .direct, 4075⟩ 3
    let o : OrderRec := { o20 with dest := .station 612 }
    Quiet s ∧ s.dsp.evaluating = true ∧ s.dsp.position = none ∧ s.dsp.order = some 20 ∧ orderAt s 20 = some o ∧
      s.dsp.best = some ⟨51, .direct, 4075⟩ ∧ isShelf s 377 = false ∧ stationNode s 377 = some 311 ∧ patchWaits s = false ∧
      recheck s o ⟨51, .direct, 4075⟩ = true ∧ recheck (ports ⟨13, .chain, 9⟩ 0) o ⟨13, .chain, 9⟩ = false ∧
      eligible s o = true ∧ snapshot s o = [(13, .chain), (51, .direct)] ∧ eligible { scored with buf := {} } o20 = false ∧ st40.dsp.position ≠ none :=
  ⟨rfl, by decide +kernel⟩
/-- ACompletedPassAssignsEndsOrRestarts, the chain candidate: vehicle 13, delivering its own order. -/
theorem wit_AChainCandidate :
    let s : State := { ports ⟨13, .chain, 9⟩ 0 with
      orders := [(20, some (.move { o20 with dest := .station 612 })),
        (21, some (.move { o20 with dest := .station 645, state := .carrying, vehicle := some 13 }))],
      flt := { st0.flt with vehicles := [(13, { state := .toDest, pos := some ⟨none, 150, 0, false⟩, target := some 524,
                                                path := [150, 151, 156, 152], current := some 21 })] },
      dsp := { (ports ⟨13, .chain, 9⟩ 0).dsp with inWindow := [(13, true)] } }
    recheck s { o20 with dest := .station 612 } ⟨13, .chain, 9⟩ = true := by decide +kernel
/-- ACompletedPassAssignsEndsOrRestarts, from a shelf to a bay. -/
theorem wit_AShelfToABay :
    let o : OrderRec := { o20 with source := .station 640, dest := .buffer 5 }
    let s : State := { ports ⟨51, .direct, 4075⟩ 0 with orders := [(20, some (.move o))] }
    s.dsp.evaluating = true ∧ s.dsp.position = none ∧ s.dsp.order = some 20 ∧ orderAt s 20 = some o ∧ isShelf s 640 = true ∧
      stationNode s 640 = some 523 ∧ eligible s o = true ∧ recheck s o ⟨51, .direct, 4075⟩ = true ∧ dropChoice s 5 = some 641 := by
  decide +kernel
theorem wit_AFinishedMoveLeavesNothingBehind :
    Sound at22 ∧ (∃ o, orderAt at22 20 = some o ∧ o.vehicle = some 51) ∧ (veh at22 51).state ≠ .offline ∧
      Sound st40 ∧ orderAt st40 20 = some o20 ∧ o20.vehicle = none :=
  ⟨sound_of _ (by decide +kernel), ⟨_, rfl, rfl⟩, by decide +kernel, sound_of _ (by decide +kernel), by decide +kernel, rfl⟩
/-- Vehicle 51 standing at a node that is its target, in a state. -/
def stands (n seg : Nat) (r : Vehicle) : State :=
  { picking .queued with
    orders := [(20, some (.move { o20 with state := if r.state = .toDest then .carrying else .assigned, vehicle := some 51,
                                           dest := .station 612 }))],
    flt := { st0.flt with
      vehicles := tset {} st0.flt.vehicles 51
        { r with pos := some ⟨some n, seg, 0, false⟩, target := some n, current := if r.state = .parking then none else some 20 } } }
/-- Its state, whether it circulates, its pool, its park node, its JOG. -/
def rec51 (st : VState) (circ : Bool) (pool : Nat) (park : Option Nat) (jog : Option Jog) : Vehicle :=
  { state := st, circulating := circ, pool := pool, park := park, jog := jog }
/-- AnArrivalActsByTheState: every clause. Bay 5's park nodes are 525 and 526, of which vehicle 14 reserves 525. -/
theorem wit_AnArrivalActsByTheState :
    let full : State := { stands 520 150 (rec51 .parking true 5 none none) with flt := { st0.flt with vehicles :=
      [(12, { state := .idle, park := some 525 }), (14, { state := .parking, park := some 526 }),
       (51, { rec51 .parking true 5 none none with pos := some ⟨some 520, 150, 0, false⟩, target := some 520 })] } }
    [stands 311 40 (rec51 .toSource false 0 none none), stands 522 151 (rec51 .toDest false 0 none none),
      stands 526 154 (rec51 .parking false 5 (some 526) none), stands 526 154 (rec51 .parking false 5 none none),
      stands 526 154 (rec51 .parking true 5 none none), stands 520 150 (rec51 .parking true 5 none none),
      stands 310 39 (rec51 .manual false 0 none (some ⟨9, 310, true⟩)), stands 310 39 (rec51 .manual false 0 none (some ⟨9, 311, false⟩)),
      full].all (fun s => (veh s 51).pos.isSome && decide (standingAt (veh s 51) = (veh s 51).target) && !(veh s 51).uncertain &&
        tableWf none s.orders && tableWf {} s.flt.vehicles && tableWf {} s.zones && tableWf {} s.buf.shelves && tableWf {} s.tsl.links) = true ∧
      stationNode (stands 311 40 (rec51 .toSource false 0 none none)) 377 = some 311 ∧
      stationNode (stands 522 151 (rec51 .toDest false 0 none none)) 612 = some 522 ∧
      parkChoice (stands 526 154 (rec51 .parking true 5 none none)) 51 = some 526 ∧
      parkChoice (stands 520 150 (rec51 .parking true 5 none none)) 51 = some 526 ∧ parkChoice full 51 = none ∧
      (bayAt full 5).map (fun b => b.entryNode) = some 520 ∧ (bayAt full 0).map (fun b => b.entryNode) = some 310 := by decide +kernel
/-- ParkingChoosesOffersAndNudges: a park node to reserve where it stands and elsewhere, none, an offer taken, a nudge. -/
theorem wit_ParkingChoosesOffersAndNudges :
    let s (n : Nat) (park : Option Nat) : State := { st0 with flt := { st0.flt with
      vehicles := tset {} st0.flt.vehicles 51 { state := .idle, pool := 5, pos := some ⟨some n, 154, 0, false⟩, park := park } } }
    let none_ (n : Nat) : State := { s n none with flt := { st0.flt with vehicles := [(12, { state := .idle, park := some 525 }),
      (14, { state := .parking, park := some 526 }), (51, { state := .idle, pool := 5, pos := some ⟨some n, 154, 0, false⟩ })] } }
    parkList st0 5 = [525, 526] ∧ parkChoice (s 526 none) 51 = some 526 ∧ parkChoice (s 522 none) 51 = some 526 ∧
      parkChoice (none_ 522) 51 = none ∧ (bayAt st0 5).map (fun b => b.entryNode) = some 520 ∧
      loopNext st0 520 = some 150 ∧ segTo st0 150 = some 521 ∧ standingAt (veh (none_ 520) 51) = some 520 ∧
      standingAt (veh (s 526 (some 526)) 51) = some 526 ∧ (veh (s 526 (some 526)) 51).park = some 526 ∧
      (∃ p ∈ (s 526 none).flt.vehicles, p.1 ≠ 51 ∧ p.2.park = some 525) ∧
      (∀ p ∈ (s 522 none).flt.vehicles, p.2.park ≠ some 526) ∧ takesOffer (s 522 none) 526 (veh (s 522 none) 51) = true := by
  decide +kernel
/-- The premises of the frames of a vehicle, at the last vehicle, node and held limit: APassIsPlacedOnThePath,
AnArriveIsPlacedOnThePath, AHoistReplyMovesTheCycle, AStatusReportsFaultOrRun. -/
theorem wit_Frames :
    let s := last255 .idle
    Quiet s ∧ s.tsl.linkHold = false ∧ 255 < 256 ∧ 2047 < 2048 ∧ (2047 < 2048 ∨ 2047 = 65535) ∧ (veh s 255).state ≠ .offline ∧
      (veh s 255).state ≠ .lost ∧ 0 = (linkAt s 255).tag.toNat ∧ 9 ≠ (linkAt s 255).tag.toNat ∧
      (picking .awaiting).agenda = [] ∧ (veh (picking .awaiting) 51).hoist = some (load51 .awaiting) ∧
      (veh (picking .accepted) 51).hoist = some (load51 .accepted) :=
  ⟨rfl, rfl, by decide +kernel⟩
/-- The unload of an order for station 612. -/
def unloading : State :=
  { picking .accepted with
    orders := [(20, some (.move { o20 with state := .placing, vehicle := some 51, dest := .station 612 }))],
    flt := { st0.flt with vehicles := [(51, v51 .unloading (some { load51 .accepted with kind := .unload, station := 612 }))] } }
def picksFor612 : State :=
  { picking .accepted with
    orders := [(20, some (.move { o20 with state := .picking, vehicle := some 51, dest := .station 612 }))] }
theorem wit_AHoistEndDecidesTheOrder :
    let s := picksFor612
    Quiet s ∧ s.tsl.linkHold = false ∧ (veh s 51).state ≠ .offline ∧ (veh s 51).state ≠ .lost ∧ 1 = (linkAt s 51).tag.toNat ∧
      (veh s 51).hoist = some (load51 .accepted) ∧ (veh s 51).current = some 20 ∧
      (∃ o, orderAt s 20 = some o ∧ o.carrier = some [1, 2, 3] ∧ o.dest = .station 612) ∧ stationNode s 612 = some 522 ∧
      (orderAt (setPlaced 377 false (freePick 377 (replyTaken 51 (restartSilence 51 s)))) 20).isSome = true ∧
      (veh unloading 51).hoist = some { load51 .accepted with kind := .unload, station := 612 } ∧
      (veh unloading 51).current = some 20 ∧ (orderAt unloading 20).isSome = true :=
  ⟨rfl, rfl, by decide +kernel, by decide +kernel, by decide +kernel, by decide +kernel, by decide +kernel,
    ⟨_, rfl, rfl, rfl⟩, by decide +kernel⟩
/-- AHoistEndDecidesTheOrder: a bay's shelf chosen late, or none left, another tag, no cycle, a cycle that takes no frame. -/
theorem wit_AHoistEnd_others :
    let bare (b : Buf) : State := { picking .accepted with
      orders := [(20, some (.move { o20 with state := .picking, vehicle := some 51 }))], buf := b }
    let taken (b : Buf) : State := setPlaced 377 false (freePick 377 (replyTaken 51 (restartSilence 51 (bare b))))
    (bare st0.buf).agenda = [] ∧ (bare st0.buf).tsl.linkHold = false ∧ 1 = (linkAt (bare st0.buf) 51).tag.toNat ∧
      9 ≠ (linkAt (bare st0.buf) 51).tag.toNat ∧ (veh (bare st0.buf) 51).current = some 20 ∧
      (orderAt (taken st0.buf) 20).map (fun o => (o.dest, o.chosen)) = some (.buffer 5, none) ∧
      dropChoice (taken st0.buf) 5 = some 641 ∧ stationNode (taken st0.buf) 641 = some 523 ∧ dropChoice (taken {}) 5 = none ∧
      (veh (last255 .idle) 255).hoist = none ∧ (veh (picking .queued) 51).hoist = some (load51 .queued) := by decide +kernel
/-- AStatusReportsFaultOrRun: a RUN whose held limit has just made the vehicle FAULTED. -/
theorem wit_AStatus_recovers :
    let s : State := { at24 with tsl := { links :=
      [(51, { lastSent := .grant, sentLimit := some 612, grantTime := some 12310, confirm := 3, silence := some 21100 })] } }
    s.agenda = [] ∧ s.tsl.linkHold = false ∧ (veh s 51).state = .toDest ∧ (veh (heard 51 605 s) 51).state = .faulted := by decide +kernel
/-- AScanFrameJoinsItsAssembly, the confirmation, at the last row and column: a shelf sensed EMPTY, one pending, one UNKNOWN. -/
theorem wit_AScanConfirms :
    let e : BayEntry := ⟨3, {}, 520, 2, 3, 4, 7000, 640, []⟩
    Sound st0 ∧ 2 < e.rows ∧ 3 < e.cols ∧ (shelfAt st0 641).sensed = some .empty ∧ (shelfAt st0 651).sensed = none ∧
      rackShelves e = List.range' 640 12 ∧ 639 ∉ rackShelves e ∧ 652 ∉ rackShelves e ∧ [0xFA, 1][1]? = some 1 ∧ 2 = 1 + 1 ∧
      enterRows e 1 [0xFA, 1, 7] [(2, some 4)] = [(1, some 0xA), (2, some 1)] :=
  ⟨sound_of _ (by decide +kernel), by decide +kernel⟩
theorem wit_AScanFrameJoinsItsAssembly :
    let e : BayEntry := ⟨3, {}, 520, 2, 1, 1, 7000, 640, []⟩
    let s : State := { com with map := { com.map with bays := [(63, some e)] } }
    Quiet s ∧ s.tsl.linkHold = false ∧ committed s = true ∧ bayAt s 63 = some e ∧ e.rows ≠ 0 ∧ e.cols ≠ 0 ∧ 7 + [(255 : Nat)].length ≤ 8 :=
  ⟨rfl, rfl, by decide +kernel⟩
theorem wit_FramesThatAreNotTaken :
    Quiet on ∧ silent.tsl.linkHold = true ∧ on.tsl.linkHold = false ∧ examine [0, 1, 2, 3, 4] = .discard .linkFrame 0x01020001 ∧
      (veh on 255).state = .offline ∧ (veh (last255 .lost) 255).state = .lost ∧ Quiet (last255 .lost) ∧
      (last255 .lost).tsl.linkHold = false :=
  ⟨rfl, rfl, rfl, by decide +kernel, by decide +kernel, by decide +kernel, rfl, rfl⟩
/-- The numeric clauses at the ends of their ranges: node and held 2047 and 2048, held 65535, answers 3 and 4, outcomes 5
and 6, a carrier id of 32 and 33 bytes, conditions with code 0 and 1, a scan up to row 7 and past it, readers 256 to 319. -/
theorem wit_FramesThatAreNotTaken_bounds :
    let goodHeld (h : Nat) : Prop := h < 2048 ∨ h = 65535
    let goodStatus (cond code : Nat) : Prop := cond = 0 ∧ code = 0 ∨ cond = 1 ∧ code ≠ 0
    goodHeld 2047 ∧ goodHeld 65535 ∧ ¬ goodHeld 2048 ∧ ¬ goodHeld 65534 ∧ (2048 ≤ 2048 ∧ 2047 < 2048) ∧ (3 < 4 ∧ 3 ≤ 3) ∧ (5 < 6 ∧ 5 ≤ 5) ∧
      (32 < (List.replicate 33 (0 : Byte)).length ∧ (List.replicate 32 (0 : Byte)).length ≤ 32) ∧
      goodStatus 0 0 ∧ goodStatus 1 1 ∧ ¬ goodStatus 0 1 ∧ ¬ goodStatus 1 0 ∧ ¬ goodStatus 2 1 ∧
      (256 ≤ 256 ∧ 319 < 320 ∧ 8 < 7 + [0, 0].length) ∧ (255 < 256 ∨ 320 ≤ 255) := by decide
theorem wit_HoistTimersActInTheirPhase : Quiet (picking .retryWait) ∧ (veh (picking .retryWait) 51).hoist = some (load51 .retryWait) :=
  ⟨rfl, by decide +kernel⟩
theorem wit_LinkTimersResendOrReport :
    let r := veh (last255 .idle) 255
    let sending : State := { last255 .idle with tsl := { tx := some ⟨255, .hoist ⟨1, .load, 377, 0x150000, none⟩, false⟩ } }
    Quiet sending ∧ veh sending 255 = r ∧ sending.tsl.tx.isSome = true ∧
    Quiet (last255 .idle) ∧ r.state ≠ .offline ∧ r.current = none ∧ r.chained = none ∧ r.jog = none ∧ r.park = none ∧ r.hoist = none ∧
      (last255 .idle).tsl.tx = none := ⟨rfl, rfl, rfl, rfl, by decide +kernel⟩
/-- LinkTimersResendOrReport, a vehicle with an order in each state, sent and unsent; with a chained order; with a JOG. -/
theorem wit_GoingOut :
    let s (st : OrderState) (h : Option HoistCycle) : State := { picking .queued with
      orders := [(20, some (.move { o20 with state := st, vehicle := some 51, cancelDeferred := true })),
        (21, some (.move { o20 with state := .chained, vehicle := some 51 })), (22, some (.directive ⟨11, 7, 0, 0⟩))],
      flt := { st0.flt with vehicles := [(51, { v51 .toDest h with chained := some 21, jog := some ⟨22, 310, false⟩, park := some 310 })] } }
    Sound (s .assigned none) ∧ Sound (s .carrying (some (load51 .accepted))) ∧
      [OrderState.assigned, .picking, .carrying, .placing].all (fun st => [none, some (load51 .awaiting), some (load51 .accepted)].all
        (fun h => decide ((veh (s st h) 51).state ≠ .offline) && decide ((veh (s st h) 51).current = some 20) &&
          decide ((veh (s st h) 51).chained = some 21) && (orderAt (s st h) 20).isSome && (orderAt (s st h) 21).isSome &&
          decide (liveAt (s st h) 22 = some (.directive ⟨11, 7, 0, 0⟩)))) = true :=
  ⟨sound_of _ (by decide +kernel), sound_of _ (by decide +kernel), by decide +kernel⟩
theorem wit_TheTransmitterAlternates :
    Quiet busyPort ∧ busyPort.tsl.tx = none ∧ busyPort.tsl.linkHold = false ∧ busyPort.tsl.grantQueue = [(13, true), (14, true)] ∧
      busyPort.tsl.mark = .hoist ∧ busyPort.tsl.hoistQueue ≠ [] ∧ on.tsl.grantQueue = [] ∧ on.tsl.hoistQueue = [] :=
  ⟨rfl, by decide +kernel⟩
theorem wit_ASentFrameIsRecorded :
    ∀ f ∈ [OutFrame.grant [40] 311, .stand, .hoist ⟨1, .load, 377, 0x150000, none⟩],
      Quiet { on with tsl := { tx := some { vehicle := 255, frame := f, noWait := false } } } := fun _ _ => rfl
/-- ASentFrameIsRecorded: a HOIST whose cycle has ended, without a new cycle and with one. -/
theorem wit_ASentFrame_no_wait :
    (veh on 255).hoist = none ∧
      (veh { on with flt := { vehicles := [(255, v51 .toSource (some (load51 .queued)))] } } 255).hoist ≠ none := by decide +kernel
theorem wit_ZonesAreRequestedGrantedAndReleased :
    Sound at22 ∧ zoneAt at22 82 = some ⟨1, 5, 0⟩ ∧ (zoneRec at22 82).live = .opened ∧ (zoneRec at22 82).holder = none ∧
      (holdsBay at22 13 5 || decide (occupancy at22 5 < capacityOf at22 5)) = true ∧ (zoneRec at22 82).waiters = [] ∧
      limitOf at22 (veh at22 13) = some 523 ∧ (veh at22 13).target = some 524 ∧ (zoneRec at22 81).holder = some 13 ∧
      zoneBay at22 81 = some 5 ∧ (List.replicate 32 150).length ≤ 32 ∧ (zoneRec at22 82).holder ≠ some 13 ∧
      extendPath at22 525 82 32 523 [] = [152, 153] ∧ extendPath at22 524 82 32 523 [] = [152] ∧
      extendPath at22 524 82 32 523 (List.replicate 32 150) = List.replicate 32 150 :=
  ⟨sound_of _ (by decide +kernel), by decide +kernel⟩
/-- WaitsAreServedRevisedAndAttempted: a free merge zone with claimants and without, a free plain one with a waiter, a wait
that stays and one that does not, an attempt in another zone, in the vehicle's own, and none. -/
theorem wit_WaitsAreServedRevisedAndAttempted :
    let free (z : Nat) (ws : List Wait) : State := { at22 with zones := tset {} at22.zones z { waiters := ws } }
    let own : State := { at22 with
      zones := [(21, { holder := some 51 })],
      flt := { at22.flt with
        vehicles := tset {} at22.flt.vehicles 51 { veh at22 51 with pos := some ⟨some 311, 40, 0, false⟩, path := [41] } } }
    let roomy : State := { free 80 [] with map := { at22.map with bays := [] } }
    Sound at22 ∧ Sound own ∧ (zoneAt at22 80).map (fun e => (e.kind, e.merge)) = some (2, 6) ∧ (zoneAt at22 82).map (fun e => e.kind) = some 1 ∧
      (zoneRec (free 80 [{ vehicle := 14, since := 0 }]) 80).holder = none ∧ (arbiterAt at22 6).isSome = true ∧
      bayCondition (free 80 []) 51 80 = true ∧ bayCondition roomy 51 80 = false ∧
      limitOf at22 (veh at22 51) = some 520 ∧ (veh at22 51).target = some 523 ∧ waitingAt at22 51 = some 80 ∧ mayExtend at22 51 = true ∧
      (nextAtLimit at22 51).bind (segZone at22) = some 80 ∧
      mayExtend { at22 with flt := { at22.flt with phase := .assembly } } 51 = false ∧
      waitingAt own 51 = none ∧ mayExtend own 51 = true ∧ (nextAtLimit own 51).bind (segZone own) = some 21 ∧
      (zoneRec own 21).holder = some 51 ∧ (limitSegment (veh own 51)).bind (segZone own) = some 21 ∧ (veh own 51).path.length < 32 ∧
      (zonesAhead own 51).length < own.map.globals.lookahead := by
  refine ⟨sound_of _ ?_, sound_of _ ?_, ?_⟩ <;> decide +kernel
theorem wit_AnAwardFollowsHotThenConvoyThenFavour :
    (arbiterAt at22 6).isSome = true ∧ branchOf at22 6 14 = .a ∧ branchOf at22 6 51 = .b ∧ hot at22 51 = true ∧ hot at22 14 = false := by
  decide +kernel
theorem wit_TheBestCandidateIsUnique :
    let l : List Best := [⟨0, .direct, 16777215⟩, ⟨255, .chain, 16777215⟩]
    l ≠ [] ∧ (l.map (fun x => x.vehicle)).Nodup := by decide
/-- Old 65,534, floor 1: a measurement of 65,535 is above and in the band. Old 1, floor 1 and 5: one above the band. Old 5,
floor 1 and 0: one below it and below the floor. -/
theorem wit_LearningMovesAnEighth :
    (1 ≤ 65534 ∧ 65534 < 65535 ∧ 65535 ≤ 65534 + 3 ∧ 65534 ≤ 65535 + 4) ∧ (1 ≤ 1 ∧ 1 + 3 < 5 ∧ 5 ≤ 65535) ∧
      (1 ≤ 5 ∧ 0 + 4 < 5 ∧ 0 < 1) := by decide
theorem wit_GhostInferenceFindsRectangles :
    let p := readPresent [(0, some 0xA), (2, some 0xA)]
    p 0 1 = true ∧ p 0 3 = true ∧ p 2 3 = true ∧ p 2 1 = true ∧ p 1 1 = false := by decide
theorem wit_TheDropChoiceIsTheLowestShelf :
    dropChoice st0 5 = some 641 ∧ dropChoice com 5 = none ∧ orderAt st40 20 = some o20 ∧ dropChoice st40 5 = some 641 := by decide +kernel
/-- TheDropChoiceIsTheLowestShelf, the re-choice: a carrier on its way, one being placed before and after its first HOIST, an
order not yet loaded; another shelf choosable, or none. -/
theorem wit_AReservedDropIsChosenAnew :
    let s (st : OrderState) (h : Option HoistCycle) : State := { at22 with
      orders := [(20, some (.move { o20 with state := st, vehicle := some 51, chosen := some 641, shelfChosen := true }))],
      flt := { at22.flt with vehicles := tset {} at22.flt.vehicles 51 { veh at22 51 with hoist := h } },
      buf := { at22.buf with shelves := (tset {} at22.buf.shelves 643 { sensed := some .empty }) } }
    Sound (s .carrying none) ∧ (shelfAt (s .carrying none) 641).logical = .reservedDrop ∧
      (shelfAt (s .carrying none) 641).reserving = some 20 ∧ (stationAt (s .carrying none) 641).map (fun e => e.bay) = some 5 ∧
      dropChoice (s .carrying none) 5 = some 643 ∧ dropChoice at22 5 = none ∧ stationNode at22 643 = some 523 ∧
      keepsShelf (s .placing (some (load51 .accepted))) { o20 with state := .placing, vehicle := some 51 } = true ∧
      keepsShelf (s .placing none) { o20 with state := .placing, vehicle := some 51 } = false :=
  ⟨sound_of _ (by decide +kernel), by decide +kernel⟩

end Sys2Proof.Tests
end

section
/-! SUPPORT. Laws of the map directive queue: how its head ends, and what the operations of the map work leave alone. -/

namespace Sys2Proof.Machine

variable (s : State)

/-! ### The head ends -/

/-- The head of the queue ends: its record goes, the slot is owed the result, the next is to run (01 R11). -/
theorem endHead_cons {d : MapDir} {q : List MapDir} (h : s.map.queue = d :: q) (code : ResultCode) (reason : Option Reason)
    (detail flags : Nat) :
    endHead code reason detail flags s = push [.mapHead]
      (endDirective d.slot code reason detail flags { s with map := { s.map with queue := q, run := .idle } }) := by
  rw [endHead, h]

theorem refuseHead_cons {d : MapDir} {q : List MapDir} (h : s.map.queue = d :: q) (reason : Reason) (detail : Nat) :
    refuseHead reason detail s = push [.mapHead]
      (endDirective d.slot .refused (some reason) detail 0 { s with map := { s.map with queue := q, run := .idle } }) :=
  endHead_cons s h ..

/-! ### Raised causes and logged errors -/

@[simp] theorem raiseCause_map (c : Cause) : (raiseCause c s).map = s.map := by
  unfold raiseCause; dsimp only; (repeat' split) <;> rfl
@[simp] theorem logError_map (kind : LogKind) (detail : Nat) : (logError kind detail s).map = s.map := by
  unfold logError; dsimp only; (repeat' split) <;> simp
@[simp] theorem logFault_map (cause off : Nat) : (logFault cause off s).map = s.map := logError_map ..

/-! ### Writing and emptying a section -/

@[simp] theorem writeEntry_queue (sec i : Nat) (bs : List Byte) : (writeEntry sec i bs s).map.queue = s.map.queue := by
  unfold writeEntry; dsimp only; split <;> rfl

@[simp] theorem emptyRange_queue (sec first count : Nat) : (emptyRange sec first count s).map.queue = s.map.queue := by
  unfold emptyRange; dsimp only; split <;> rfl
@[simp] theorem emptyRange_run (sec first count : Nat) : (emptyRange sec first count s).map.run = s.map.run := by
  unfold emptyRange; dsimp only; split <;> rfl

/-! ### A staging read -/

/-- A staging read of a MAP_LOAD that is abandoned ends it LOAD_FAULT and empties its range (01 R16). -/
theorem loadFails_cons {d : MapDir} {q : List MapDir} (h : s.map.queue = d :: q) (sec first count off i cause : Nat) :
    loadFails sec first count off i cause s =
      let t := emptyRange sec first count (logFault cause (loadPlace s sec first off i) s)
      push [.mapHead] (endDirective d.slot .refused (some .loadFault) (sectionDetail sec i) 0
        { t with map := { t.map with queue := q, run := .idle } }) :=
  refuseHead_cons _ (by simpa using h) ..

/-- A staging read inside the window is in progress, one outside is abandoned with cause 1 (10 R185). -/
theorem loadRead_inside {sec first off i : Nat} (count : Nat)
    (h : accessOk s (loadPlace s sec first off i) (entrySize sec) = true) :
    loadRead sec first count off i s = setRun (.loading i) s := if_pos h
theorem loadRead_outside {sec first off i : Nat} (count : Nat)
    (h : accessOk s (loadPlace s sec first off i) (entrySize sec) = false) :
    loadRead sec first count off i s = loadFails sec first count off i 1 s := if_neg (by simp [h])

end Sys2Proof.Machine
end

section
/-! SUPPORT. The taking of a map directive into an empty queue, and its run at the queue's head, as two acts (log 10). -/

namespace Sys2Proof.Machine

variable {s : State}

/-! ### Acts -/

/-- An act that changes nothing calls for no write. -/
theorem dues_self (s : State) : dues s s = [] := by
  have hkeys {α : Type} [DecidableEq α] (d : α) (t : Table α) : changedKeys d t t = [] := if_pos rfl
  simp [dues, slotDues, vehicleDues, trackDues, zoneDues, shelfDues, arbiterZones, statusDues, occupancyChanged, hkeys, uniq,
    sortNat]

/-- With no directive at the head nothing runs. -/
theorem mapHead_empty (h : s.map.queue = []) : mapHead s = s := by
  unfold mapHead
  split
  · next hq => rw [h] at hq; cases hq
  · rfl

/-- The run of the head, asked for alone, and what it asks for in turn. -/
theorem cascade_mapHead (n : Nat) (h : s.agenda = []) :
    cascade (n + 1) { s with agenda := [.mapHead] } = cascade n (mapHead s) ∧
      cascadeDues (n + 1) { s with agenda := [.mapHead] } = joinDues (dues s (mapHead s)) (cascadeDues n (mapHead s)) := by
  have hclear : ({ { s with agenda := [.mapHead] } with agenda := [] } : State) = s := by cases s; cases h; rfl
  have hrest (t : State) : ({ t with agenda := t.agenda ++ [] } : State) = t := by rw [List.append_nil]
  rw [cascade_cons n rfl, cascadeDues_cons n rfl, hclear, hrest]
  exact ⟨rfl, rfl⟩

/-- The head's run as the second act of an event whose directive stays at the head. -/
theorem settle_head_runs {m b : State} (hm : m.agenda = []) (hb : b.agenda = []) (h : mapHead m = b) :
    settle s { m with agenda := [.mapHead] } = twoActs s m b := by
  obtain ⟨hrun, hdues⟩ := cascade_mapHead 99999 hm
  rw [h, cascade_quiet _ hb] at hrun
  rw [h, cascadeDues_quiet _ hb, joinDues_nil] at hdues
  rw [settle, show Config.cascadeBound = 99999 + 1 from rfl, hdues, hrun]
  rfl

/-- The head's run as the second act of an event whose directive ends and leaves the queue empty. -/
theorem settle_head_ends {m b : State} (hm : m.agenda = []) (hb : b.agenda = []) (hq : b.map.queue = [])
    (h : mapHead m = push [.mapHead] b) :
    settle s { m with agenda := [.mapHead] } = twoActs s m b := by
  have hpush : push [.mapHead] b = { b with agenda := [.mapHead] } := by rw [push, hb]; rfl
  obtain ⟨hrun, hdues⟩ := cascade_mapHead 99999 hm
  obtain ⟨hrun', hdues'⟩ := cascade_mapHead 99998 hb
  rw [mapHead_empty hq, cascade_quiet _ hb] at hrun'
  rw [mapHead_empty hq, cascadeDues_quiet _ hb, dues_self, joinDues_nil] at hdues'
  rw [h, hpush, hrun'] at hrun
  rw [h, hpush, hdues', joinDues_nil] at hdues
  rw [settle, show Config.cascadeBound = 99999 + 1 from rfl, hdues, hrun]
  rfl

/-! ### Takings -/

theorem takeable_running {slot : Nat} (h : takeable s slot = true) : s.win.engine = .running := by
  simp only [takeable, Bool.and_eq_true, decide_eq_true_eq] at h
  obtain ⟨⟨⟨⟨⟨hrun, -⟩, -⟩, -⟩, -⟩, -⟩ := h
  exact hrun

theorem takeable_free {slot : Nat} (h : takeable s slot = true) : liveAt s slot = none := by
  simp only [takeable, Bool.and_eq_true, Option.isNone_iff_eq_none] at h
  obtain ⟨⟨-, hfree⟩, -⟩ := h
  exact hfree

/-- A map directive joins the end of the queue and asks for its run if the queue was empty, or is refused MAP_BUSY (01 R11). -/
theorem takeRow_mapDir {slot : Nat} (hquiet : Quiet s) (htake : takeable s slot = true) (tag : BitVec 32) (op : MapOp) :
    takeRow slot tag (.mapDir op) s =
      if 8 ≤ s.map.queue.length then refuses s slot tag .mapBusy
      else { keepsDirective s slot tag (mapKind op) s with
        map := { s.map with queue := s.map.queue ++ [{ slot := slot, op := op }] },
        agenda := if s.map.queue = [] then [.mapHead] else [] } := by
  have hagenda : s.agenda = [] := hquiet
  rw [takeRow_taken htake]
  change (if 8 ≤ s.map.queue.length then _ else if s.map.queue = [] then push [.mapHead] _ else _) = _
  by_cases hfull : 8 ≤ s.map.queue.length
  · rw [if_pos hfull, if_pos hfull]; rfl
  · rw [if_neg hfull, if_neg hfull]
    by_cases hq : s.map.queue = []
    · rw [if_pos hq, if_pos hq, push, keepDirective_agenda, countTaking_agenda, hagenda]; rfl
    · rw [if_neg hq, if_neg hq, ← hagenda]; rfl

/-! ### The directive alone in the queue -/

/-- The state of the blocks `b` with a directive taken at `s` alone in the map directive queue. -/
def alone (s : State) (slot : Nat) (tag : BitVec 32) (op : MapOp) (b : State) : State :=
  { keepsDirective s slot tag (mapKind op) b with map := { b.map with queue := [{ slot := slot, op := op }] } }

/-- The state of the blocks `b` with a directive taken at `s` ended, and its record gone. -/
def ended (s : State) (slot : Nat) (tag : BitVec 32) (code : ResultCode) (reason : Option Reason) (detail : Nat) (b : State) :
    State :=
  { endsDirective s slot tag code reason detail 0 b with orders := tset none s.orders slot none }

theorem takeRow_alone {slot : Nat} (hquiet : Quiet s) (htake : takeable s slot = true) (hq : s.map.queue = [])
    (tag : BitVec 32) (op : MapOp) :
    takeRow slot tag (.mapDir op) s = { alone s slot tag op s with agenda := [.mapHead] } := by
  have hroom : ¬ 8 ≤ s.map.queue.length := by simp [hq]
  rw [takeRow_mapDir hquiet htake, if_neg hroom, if_pos hq, hq]
  rfl

/-- A queue that has emptied, its head at rest. -/
theorem MapStore.idle_eq {m : MapStore} (hq : m.queue = []) (hr : m.run = .idle) : { m with queue := [], run := .idle } = m := by
  cases m; cases hq; cases hr; rfl

/-- The end of a directive that is still the one taken: nothing is left of it but its slot's result (01 R11, 03 R64). -/
theorem endHead_alone {slot : Nat} {tag : BitVec 32} {op : MapOp} {b : State} (hclock : b.clock = s.clock)
    (horders : b.orders = s.orders) (hq : b.map.queue = []) (hr : b.map.run = .idle) (code : ResultCode)
    (reason : Option Reason) (detail : Nat) :
    endHead code reason detail 0 (alone s slot tag op b) = push [.mapHead] (ended s slot tag code reason detail b) := by
  have hlive : liveAt (keepsDirective s slot tag (mapKind op) b) slot =
      some (.directive { kind := mapKind op, tag := tag, seq := s.ink.seq, taken := s.clock }) :=
    tget_tset_of_ne _ _ _ (by simp)
  have hback : ({ alone s slot tag op b with map := { (alone s slot tag op b).map with queue := [], run := .idle } } : State) =
      keepsDirective s slot tag (mapKind op) b :=
    congrArg (fun m => { keepsDirective s slot tag (mapKind op) b with map := m }) (MapStore.idle_eq hq hr)
  have hkept : SlotDue.mk true none ≠ {} := by decide
  have hnow : (keepsDirective s slot tag (mapKind op) b).clock = s.clock := hclock
  rw [endHead_cons _ rfl, hback, endDirective, hlive]
  dsimp only
  rw [hnow]
  change push _ { keepsDirective s slot tag (mapKind op) b with
    orders := tset none (tset none b.orders slot _) slot none,
    win := { b.win with
      slotDue := tset {} (tset {} b.win.slotDue slot ⟨true, none⟩) slot (directiveDone s tag code reason detail 0) } } = _
  rw [tset_tset _ _ _ _ (Option.some_ne_none _), tset_tset _ _ _ _ hkept, horders]
  rfl

/-- A list made of a table's entries does not change with an entry that gives none, as the empty form does. -/
theorem filterMap_tset {α β : Type} [DecidableEq α] (f : Nat × α → Option β) {d v : α} {t : Table α} {k : Nat}
    (h : tget d t k = d) (hd : f (k, d) = none) (hv : f (k, v) = none) : (tset d t k v).filterMap f = t.filterMap f := by
  induction t with
  | nil => simp only [tset]; split <;> simp [hv]
  | cons p t ih =>
    obtain ⟨j, w⟩ := p
    rw [tget_cons] at h
    simp only [tset]
    split
    · split <;> simp [List.filterMap_cons, hv]
    · split
      · next hk =>
        obtain rfl : w = d := by simpa [hk] using h
        subst hk
        split <;> simp [hd, hv]
      · next hk => rw [List.filterMap_cons, List.filterMap_cons, ih (by simpa [Ne.symm hk] using h)]

/-- The taking of a directive leaves the live MOVEs as they are: its slot held none. -/
theorem moves_alone {slot : Nat} (hfree : liveAt s slot = none) (tag : BitVec 32) (op : MapOp) :
    moves (alone s slot tag op s) = moves s := filterMap_tset _ hfree rfl rfl

/-! ### What the head's work does beside the directive -/

/-- While the engine is RUNNING an error is only logged: its cause is raised with the status block's write (10 R198). -/
theorem logFault_alone {b : State} (hrun : b.win.engine = .running) (slot : Nat) (tag : BitVec 32) (op : MapOp)
    (cause off : Nat) :
    logFault cause off (alone s slot tag op b) = alone s slot tag op (logFault cause off b) := by
  have hlog : (alone s slot tag op b).win.log = b.win.log := rfl
  have hengine : (alone s slot tag op b).win.engine = .running := hrun
  simp only [logFault, logError, hlog, hengine, hrun, if_true]
  split <;> rfl

theorem logFault_running {b : State} (hrun : b.win.engine = .running) (cause off : Nat) :
    (logFault cause off b).orders = b.orders ∧ (logFault cause off b).clock = b.clock := by
  simp only [logFault, logError, hrun, if_true]
  split <;> exact ⟨rfl, rfl⟩

theorem emptyRange_alone (slot : Nat) (tag : BitVec 32) (op : MapOp) (sec first count : Nat) (b : State) :
    emptyRange sec first count (alone s slot tag op b) = alone s slot tag op (emptyRange sec first count b) := by
  unfold emptyRange alone
  dsimp only
  split <;> rfl

end Sys2Proof.Machine
end

section
/-! The four map directives as they join their queue, and as each runs at once in an empty one (01 R11 to R17, 02 R38). -/

namespace Sys2Proof.Machine

variable {s : State}

/-! ### The run at the head -/

/-- What runs for each map directive at the head (01 R11). -/
def headOf : MapOp → State → State
  | .opening => headOpen
  | .load sec first count off => headLoad sec first count off
  | .commit => headCommit
  | .patch count off => headPatch count off

theorem mapHead_cons {d : MapDir} {q : List MapDir} (hr : s.map.run = .idle) (hq : s.map.queue = d :: q) :
    mapHead s = headOf d.op s := by
  simp only [mapHead, hr, hq]
  cases d.op <;> rfl

theorem mapHead_alone (hr : s.map.run = .idle) (slot : Nat) (tag : BitVec 32) (op : MapOp) :
    mapHead (alone s slot tag op s) = headOf op (alone s slot tag op s) :=
  mapHead_cons (s := alone s slot tag op s) hr rfl

/-- The blocks `b` while a directive taken at `s` runs alone: the queue beside it is empty, the clock and the live orders
beside its own are those of `s`, and nothing is asked of the blocks. -/
structure Beside (s b : State) : Prop where
  agenda : b.agenda = []
  clock : b.clock = s.clock
  orders : b.orders = s.orders
  queue : b.map.queue = []
  run : b.map.run = .idle

theorem Beside.logFault (h : Beside s s) (hrun : s.win.engine = .running) (cause off : Nat) :
    Beside s (logFault cause off s) :=
  have ⟨horders, hclock⟩ := logFault_running hrun cause off
  { agenda := by simpa using h.agenda, clock := hclock, orders := horders, queue := by simpa using h.queue,
    run := by simpa using h.run }

theorem Beside.emptyRange {b : State} (h : Beside s b) (sec first count : Nat) : Beside s (emptyRange sec first count b) :=
  { agenda := h.agenda, clock := h.clock, orders := h.orders, queue := by simpa using h.queue, run := by simpa using h.run }

section
variable {slot : Nat} {op : MapOp} (hs : Beside s s) (htake : takeable s slot = true) (tag : BitVec 32)
include hs htake

/-- A map directive that finds the queue empty and ends as it runs. -/
theorem takeRow_ends {code : ResultCode} {reason : Option Reason} {detail : Nat} {b : State} (hb : Beside s b)
    (h : headOf op (alone s slot tag op s) = endHead code reason detail 0 (alone s slot tag op b)) :
    event (takeRow slot tag (.mapDir op)) s =
      .next (twoActs s (alone s slot tag op s) (ended s slot tag code reason detail b)) := by
  rw [endHead_alone hb.clock hb.orders hb.queue hb.run] at h
  rw [event_settle, takeRow_alone hs.agenda htake hs.queue]
  exact congrArg _ (settle_head_ends hs.agenda hb.agenda hb.queue ((mapHead_alone hs.run ..).trans h))

/-- A map directive that finds the queue empty, is refused as it runs and changes nothing else. -/
theorem takeRow_refused {reason : Reason}
    (h : headOf op (alone s slot tag op s) = refuseHead reason 0 (alone s slot tag op s)) :
    event (takeRow slot tag (.mapDir op)) s =
      .next (twoActs s (alone s slot tag op s) (ended s slot tag .refused (some reason) 0 s)) :=
  takeRow_ends hs htake tag hs h

/-- A map directive that finds the queue empty and stays at the head. -/
theorem takeRow_runs {run : MapRun} (h : headOf op (alone s slot tag op s) = setRun run (alone s slot tag op s)) :
    event (takeRow slot tag (.mapDir op)) s =
      .next (twoActs s (alone s slot tag op s) (setRun run (alone s slot tag op s))) := by
  rw [event_settle, takeRow_alone hs.agenda htake hs.queue]
  exact congrArg _ (settle_head_runs hs.agenda hs.agenda ((mapHead_alone hs.run ..).trans h))

end

/-! ### The directives -/

/-- MAP_OPEN waits for no vehicle and no MOVE: it is refused while there is one (01 R13). -/
theorem headOpen_fleetActive (h : ∃ p ∈ s.flt.vehicles, p.2.state ≠ .offline) : headOpen s = refuseHead .fleetActive 0 s :=
  if_pos (by simpa [fleet] using h)
theorem headOpen_ordersLive (hv : ¬ ∃ p ∈ s.flt.vehicles, p.2.state ≠ .offline) (hm : moves s ≠ []) :
    headOpen s = refuseHead .ordersLive 0 s := by
  rw [headOpen, if_neg (by simpa [fleet] using hv), if_pos hm]
/-- MAP_OPEN with neither: the map is OPEN, from COMMITTED without its live state. -/
theorem headOpen_completes (hv : ¬ ∃ p ∈ s.flt.vehicles, p.2.state ≠ .offline) (hm : moves s = []) :
    (s.map.phase = .vacant → headOpen s = endHead .completed none 0 0 { s with map := { s.map with phase := .opened } }) ∧
      (s.map.phase = .opened → headOpen s = endHead .completed none 0 0 s) ∧
      (s.map.phase = .committed → headOpen s = endHead .completed none 0 0 (discardLive s)) := by
  rw [headOpen, if_neg (by simpa [fleet] using hv), if_neg (by simpa using hm)]
  refine ⟨?_, ?_, ?_⟩ <;> intro hp <;> rw [hp]

theorem headLoad_refused {sec first count off : Nat} {r : Reason} (h : loadRefusal s sec first count off = some r) :
    headLoad sec first count off s = refuseHead r 0 s := by
  rw [headLoad, h]
theorem headLoad_reads {sec first count off : Nat} (h : loadRefusal s sec first count off = none) :
    headLoad sec first count off s = loadRead sec first count off first s := by
  rw [headLoad, h]

/-- The refusals of a ROUTE_PATCH with the limits of 02 R38 and the Formats. -/
theorem patchRefusal_eq (s : State) (count off : Nat) : patchRefusal s count off =
    if s.map.phase ≠ .committed then some .mapState
    else if count = 0 ∨ 256 < count ∨ off % 8 ≠ 0 ∨ stagingSize s < off + count * 16 then some .badOperand
    else none := rfl

theorem headPatch_refused {count off : Nat} {r : Reason} (h : patchRefusal s count off = some r) :
    headPatch count off s = refuseHead r 0 s := by
  rw [headPatch, h]
theorem headPatch_reads {count off : Nat} (h : patchRefusal s count off = none) :
    headPatch count off s = patchRead off [] s := by
  rw [headPatch, h]

/-- The next staging read of a ROUTE_PATCH is in progress, or abandoned with cause 1 (10 R185). -/
theorem patchRead_inside (s : State) {off : Nat} {buf : List PatchEntry}
    (h : accessOk s (patchPlace s off buf.length) patchSize = true) : patchRead off buf s = setRun (.reading buf) s := if_pos h
theorem patchRead_outside (s : State) {off : Nat} {buf : List PatchEntry}
    (h : accessOk s (patchPlace s off buf.length) patchSize = false) : patchRead off buf s = patchFails off buf.length 1 s :=
  if_neg (by simp [h])

/-- The first staging read of a MAP_LOAD is made at the operand's own offset, and so is a ROUTE_PATCH's (01 R14, 02 R38). -/
theorem loadPlace_first (s : State) (sec first off : Nat) : loadPlace s sec first off first = stagingOffset s off := by
  simp [loadPlace]
theorem patchPlace_first (s : State) (off : Nat) : patchPlace s off 0 = stagingOffset s off := by
  simp [patchPlace]

section
variable {slot : Nat} (hs : Beside s s) (htake : takeable s slot = true) (tag : BitVec 32)
include hs htake

/-- A MAP_LOAD whose first staging read lies outside the window. -/
theorem takeRow_load_faults {sec first count off : Nat} (hok : loadRefusal s sec first count off = none)
    (hout : accessOk s (stagingOffset s off) (entrySize sec) = false) :
    event (takeRow slot tag (.mapDir (.load sec first count off))) s =
      .next (twoActs s (alone s slot tag (.load sec first count off) s)
        (ended s slot tag .refused (some .loadFault) (sectionDetail sec first)
          (emptyRange sec first count (logFault 1 (stagingOffset s off) s)))) := by
  have hrun := takeable_running htake
  refine takeRow_ends hs htake tag ((hs.logFault hrun 1 _).emptyRange sec first count) ?_
  rw [← loadPlace_first s sec first off] at hout ⊢
  have hok' : loadRefusal (alone s slot tag (.load sec first count off) s) sec first count off = none := hok
  rw [headOf, headLoad_reads hok', loadRead_outside (alone s slot tag (.load sec first count off) s) count hout, loadFails,
    ← emptyRange_alone, ← logFault_alone hrun]
  rfl

/-- A MAP_LOAD whose first staging read is made. -/
theorem takeRow_load_reads {sec first count off : Nat} (hok : loadRefusal s sec first count off = none)
    (hin : accessOk s (stagingOffset s off) (entrySize sec) = true) :
    event (takeRow slot tag (.mapDir (.load sec first count off))) s =
      .next (twoActs s (alone s slot tag (.load sec first count off) s)
        (setRun (.loading first) (alone s slot tag (.load sec first count off) s))) := by
  refine takeRow_runs hs htake tag ?_
  rw [← loadPlace_first s sec first off] at hin
  have hok' : loadRefusal (alone s slot tag (.load sec first count off) s) sec first count off = none := hok
  rw [headOf, headLoad_reads hok', loadRead_inside (alone s slot tag (.load sec first count off) s) count hin]

/-- A ROUTE_PATCH whose first staging read is made. -/
theorem takeRow_patch_reads {count off : Nat} (hok : patchRefusal s count off = none)
    (hin : accessOk s (stagingOffset s off) 16 = true) :
    event (takeRow slot tag (.mapDir (.patch count off))) s =
      .next (twoActs s (alone s slot tag (.patch count off) s)
        (setRun (.reading []) (alone s slot tag (.patch count off) s))) := by
  refine takeRow_runs hs htake tag ?_
  rw [← patchPlace_first s off] at hin
  have hok' : patchRefusal (alone s slot tag (.patch count off) s) count off = none := hok
  have hin' : accessOk (alone s slot tag (.patch count off) s)
      (patchPlace (alone s slot tag (.patch count off) s) off ([] : List PatchEntry).length) patchSize = true := hin
  rw [headOf, headPatch_reads hok', patchRead_inside _ hin']

/-- A ROUTE_PATCH whose first staging read lies outside the window. -/
theorem takeRow_patch_faults {count off : Nat} (hok : patchRefusal s count off = none)
    (hout : accessOk s (stagingOffset s off) 16 = false) :
    event (takeRow slot tag (.mapDir (.patch count off))) s =
      .next (twoActs s (alone s slot tag (.patch count off) s)
        (ended s slot tag .refused (some .loadFault) (sectionDetail 8 0) (logFault 1 (stagingOffset s off) s))) := by
  have hrun := takeable_running htake
  refine takeRow_ends hs htake tag (hs.logFault hrun 1 _) ?_
  rw [← patchPlace_first s off] at hout ⊢
  have hok' : patchRefusal (alone s slot tag (.patch count off) s) count off = none := hok
  have hout' : accessOk (alone s slot tag (.patch count off) s)
      (patchPlace (alone s slot tag (.patch count off) s) off ([] : List PatchEntry).length) patchSize = false := hout
  rw [headOf, headPatch_reads hok', patchRead_outside _ hout', patchFails, ← logFault_alone hrun]
  rfl

end

end Sys2Proof.Machine
end

section
/-! The four map directives: their queue, and each alone in it. -/

namespace Sys2Proof.Machine

variable {s : State} {slot : Nat}

/-- A map directive's row: refused with a full queue, else kept, the head's run asked for if the queue was empty (01 R11). -/
theorem takeRow_queues (hquiet : Quiet s) (htake : takeable s slot = true) (tag : BitVec 32) (op : MapOp) :
    event (takeRow slot tag (.mapDir op)) s = .next (
      if 8 ≤ s.map.queue.length then finish s (refuses s slot tag .mapBusy)
      else settle s { keepsDirective s slot tag (mapKind op) s with
        map := { s.map with queue := s.map.queue ++ [{ slot := slot, op := op }] },
        agenda := if s.map.queue = [] then [.mapHead] else [] }) := by
  have hrefused : (refuses s slot tag .mapBusy).agenda = [] := hquiet
  rw [event_settle, takeRow_mapDir hquiet htake, settle_ite, settle_quiet hrefused]

section
variable (hs : Beside s s) (htake : takeable s slot = true) (tag : BitVec 32)
include hs htake

/-- MAP_OPEN alone in the queue (01 R13). -/
theorem takeRow_open_alone :
    event (takeRow slot tag (.mapDir .opening)) s = .next (twoActs s (alone s slot tag .opening s) (
      if ∃ p ∈ s.flt.vehicles, p.2.state ≠ .offline then ended s slot tag .refused (some .fleetActive) 0 s
      else if moves s ≠ [] then ended s slot tag .refused (some .ordersLive) 0 s
      else ended s slot tag .completed none 0 (match s.map.phase with
        | .vacant => { s with map := { s.map with phase := .opened } }
        | .opened => s
        | .committed => discardLive s))) := by
  have hmoves := moves_alone (takeable_free htake) tag .opening
  by_cases hv : ∃ p ∈ s.flt.vehicles, p.2.state ≠ .offline
  · rw [if_pos hv]
    exact takeRow_refused hs htake tag (headOpen_fleetActive (s := alone s slot tag .opening s) hv)
  · rw [if_neg hv]
    by_cases hm : moves s = []
    · rw [if_neg (Classical.not_not.2 hm)]
      obtain ⟨hvacant, hopened, hcommitted⟩ := headOpen_completes (s := alone s slot tag .opening s) hv (hmoves.trans hm)
      have ⟨hagenda, _, _, hq, hr⟩ := hs
      cases hp : s.map.phase with
      | vacant => exact takeRow_ends hs htake tag ⟨hagenda, rfl, rfl, hq, hr⟩ (hvacant hp)
      | opened => exact takeRow_ends hs htake tag hs (hopened hp)
      | committed => exact takeRow_ends hs htake tag ⟨hagenda, rfl, rfl, hq, hr⟩ (hcommitted hp)
    · rw [if_pos hm]
      exact takeRow_refused hs htake tag (headOpen_ordersLive hv (hmoves.symm ▸ hm))

/-- MAP_LOAD alone in the queue: refused, or its first staging read is made (01 R14, R16). -/
theorem takeRow_load_alone (sec first count off : Nat) :
    event (takeRow slot tag (.mapDir (.load sec first count off))) s =
      .next (twoActs s (alone s slot tag (.load sec first count off) s) (
        match loadRefusal s sec first count off with
        | some r => ended s slot tag .refused (some r) 0 s
        | none =>
          if accessOk s (stagingOffset s off) (entrySize sec) = false then
            ended s slot tag .refused (some .loadFault) (sectionDetail sec first)
              (emptyRange sec first count (logFault 1 (stagingOffset s off) s))
          else setRun (.loading first) (alone s slot tag (.load sec first count off) s))) := by
  cases hok : loadRefusal s sec first count off with
  | some r =>
    exact takeRow_refused hs htake tag (headLoad_refused (s := alone s slot tag (.load sec first count off) s) hok)
  | none =>
    cases hin : accessOk s (stagingOffset s off) (entrySize sec) with
    | false => exact takeRow_load_faults hs htake tag hok hin
    | true => exact takeRow_load_reads hs htake tag hok hin

/-- MAP_COMMIT alone in the queue (01 R17). -/
theorem takeRow_commit_alone :
    event (takeRow slot tag (.mapDir .commit)) s = .next (twoActs s (alone s slot tag .commit s) (
      if s.map.phase ≠ .opened then ended s slot tag .refused (some .mapState) 0 s
      else setRun .validating (alone s slot tag .commit s))) := by
  by_cases hp : s.map.phase ≠ .opened
  · rw [if_pos hp]
    exact takeRow_refused hs htake tag (if_pos hp)
  · rw [if_neg hp]
    exact takeRow_runs hs htake tag (if_neg hp)

/-- ROUTE_PATCH alone in the queue: refused, or its first staging read is made (02 R38, R39). -/
theorem takeRow_patch_alone (count off : Nat) :
    event (takeRow slot tag (.mapDir (.patch count off))) s =
      .next (twoActs s (alone s slot tag (.patch count off) s) (
        match patchRefusal s count off with
        | some r => ended s slot tag .refused (some r) 0 s
        | none =>
          if accessOk s (stagingOffset s off) 16 = false then
            ended s slot tag .refused (some .loadFault) (sectionDetail 8 0) (logFault 1 (stagingOffset s off) s)
          else setRun (.reading []) (alone s slot tag (.patch count off) s))) := by
  cases hok : patchRefusal s count off with
  | some r =>
    exact takeRow_refused hs htake tag (headPatch_refused (s := alone s slot tag (.patch count off) s) hok)
  | none =>
    cases hin : accessOk s (stagingOffset s off) 16 with
    | false => exact takeRow_patch_faults hs htake tag hok hin
    | true => exact takeRow_patch_reads hs htake tag hok hin

end

/-- Settles O30: the queue's rule for the four rows, then what each does alone in the queue, by the branches of its refusals. -/
theorem mapDirectivesQueueAndRun : Obligations.MapDirectivesQueueAndRun := by
  unfold Obligations.MapDirectivesQueueAndRun
  refine ⟨fun slot tag sec first count off s hquiet htake => ?queued,
    fun slot tag sec first count off s hquiet htake hq hr => ?alone⟩
  case queued =>
    exact ⟨takeRow_queues hquiet htake tag .opening, takeRow_queues hquiet htake tag (.load sec first count off),
      takeRow_queues hquiet htake tag .commit, takeRow_queues hquiet htake tag (.patch count off)⟩
  case alone =>
    have hs : Beside s s := ⟨hquiet, rfl, rfl, hq, hr⟩
    refine ⟨(takeRow_open_alone hs htake tag).trans ?opening, (takeRow_load_alone hs htake tag sec first count off).trans ?load,
      takeRow_commit_alone hs htake tag, (takeRow_patch_alone hs htake tag count off).trans ?patch⟩
    case opening => cases s.map.phase <;> rfl
    case load =>
      by_cases hp : s.map.phase ≠ .opened
      · rw [loadRefusal, if_pos hp, if_pos hp]; rfl
      · rw [loadRefusal, if_neg hp, if_neg hp]
        cases sectionCapacity sec with
        | none => rfl
        | some cap =>
          by_cases hbad : count = 0 ∨ cap < first + count ∨ off % 8 ≠ 0 ∨ stagingSize s < off + count * entrySize sec
          · simp only [if_pos hbad]; rfl
          · simp only [if_neg hbad]; rfl
    case patch =>
      by_cases hp : s.map.phase ≠ .committed
      · rw [patchRefusal_eq, if_pos hp, if_pos hp]; rfl
      · rw [patchRefusal_eq, if_neg hp, if_neg hp]
        by_cases hbad : count = 0 ∨ 256 < count ∨ off % 8 ≠ 0 ∨ stagingSize s < off + count * 16
        · simp only [if_pos hbad]; rfl
        · simp only [if_neg hbad]; rfl

end Sys2Proof.Machine
end

section
/-! The staging reads of MAP_LOAD. -/
namespace Sys2Proof.Machine

/-- What the completion of a MAP_LOAD's staging read does (01 R15, R16). -/
theorem loadEntryDone_error {slot i sec first count off : Nat} {rest : List MapDir} {s : State}
    (hr : s.map.run = .loading i) (hq : s.map.queue = { slot := slot, op := .load sec first count off } :: rest) :
    loadEntryDone .error s = loadFails sec first count off i 2 s := by
  simp only [loadEntryDone, hr, hq]

theorem loadEntryDone_data {slot i sec first count off : Nat} {rest : List MapDir} {s : State} (bs : List Byte)
    (hr : s.map.run = .loading i) (hq : s.map.queue = { slot := slot, op := .load sec first count off } :: rest) :
    loadEntryDone (.data bs) s =
      if i + 1 < first + count then loadRead sec first count off (i + 1) (writeEntry sec i bs s)
      else endHead .completed none 0 0 (writeEntry sec i bs s) := by
  simp only [loadEntryDone, hr, hq]

/-- Settles O31: a staging read fails, or its entry is written and the next is read, lies outside the window, or is none. -/
theorem aLoadedEntryIsWrittenAsStaged : Obligations.ALoadedEntryIsWrittenAsStaged := by
  unfold Obligations.ALoadedEntryIsWrittenAsStaged
  intro r slot i sec first count off rest s hquiet hr hq place ends faults
  change event (loadEntryDone r) s = _
  rw [event_settle]
  cases r with
  | error => rw [loadEntryDone_error hr hq, loadFails_cons s hq]; rfl
  | data bs =>
    have hq' := (writeEntry_queue s sec i bs).trans hq
    rw [loadEntryDone_data bs hr hq]
    dsimp only
    by_cases hlast : first + count ≤ i + 1
    · rw [if_neg (by omega), if_pos hlast, endHead_cons _ hq']
    · rw [if_pos (by omega), if_neg hlast]
      cases hok : accessOk s (place (i + 1)) (entrySize sec) with
      | false => rw [if_pos rfl, loadRead_outside (writeEntry sec i bs s) count hok, loadFails_cons _ hq']; rfl
      | true =>
        have hread : (setRun (.loading (i + 1)) (writeEntry sec i bs s)).agenda = [] := hquiet
        rw [if_neg (by simp), loadRead_inside (writeEntry sec i bs s) count hok, settle_quiet hread]
        rfl

end Sys2Proof.Machine
end


section
/-! MAP_COMMIT: the end of its checks. -/
namespace Sys2Proof.Machine

theorem validationDone_fails {s : State} {f : Failure} (hr : s.map.run = .validating) (hf : validate s = some f) :
    validationDone s = refuseHead .mapInconsistent (sectionDetail f.1 f.2) s := by
  simp only [validationDone, hr, hf]

theorem validationDone_passes {s : State} (hr : s.map.run = .validating) (hf : validate s = none) :
    validationDone s = endHead .completed none 0 (commitFlags s) (commitMap s) := by
  simp only [validationDone, hr, hf]

theorem bit_not_decide (p : Prop) [Decidable p] {i n : Nat} (hn : 2 ^ i = n) : bit (!decide p) i = if p then 0 else n := by
  by_cases h : p <;> simp [bit, h, hn]

/-- Bit 3 of a commit's result flags tells of a clamped parameter, bit 4 of a clamped speed (10, Formats). -/
theorem commitFlags_eq (s : State) :
    commitFlags s = (if clampGlobals s.map.globals = s.map.globals then 0 else 8) +
      (if clampSpeeds s.map.segments = s.map.segments then 0 else 16) := by
  rw [commitFlags, bit_not_decide _ (n := 8) rfl, bit_not_decide _ (n := 16) rfl]

/-- The live station states of a fresh map (01 R22): an undefined station gives none. -/
theorem commitMap_liveClosed (s : State) : (commitMap s).map.liveClosed =
    s.map.stations.filterMap (fun p => p.2.bind (fun e => if e.initial = 1 then some (p.1, true) else none)) :=
  congrArg (s.map.stations.filterMap ·) (funext fun ⟨_, e⟩ => by cases e <;> rfl)
/-- The live policies of a fresh map (01 R22): an undefined bay gives none. -/
theorem commitMap_policy (s : State) : (commitMap s).map.policy =
    s.map.bays.filterMap (fun p => p.2.bind (fun e => if e.policy = {} then none else some (p.1, e.policy))) :=
  congrArg (s.map.bays.filterMap ·) (funext fun ⟨_, e⟩ => by cases e <;> rfl)

theorem commitMap_queue (s : State) : (commitMap s).map.queue = s.map.queue := rfl

/-- A fresh map with its live station states and policies written out. -/
theorem commitMap_live (s : State) : commitMap s = { commitMap s with map := { (commitMap s).map with
    liveClosed := s.map.stations.filterMap (fun p => p.2.bind (fun e => if e.initial = 1 then some (p.1, true) else none)),
    policy := s.map.bays.filterMap (fun p => p.2.bind (fun e => if e.policy = {} then none else some (p.1, e.policy))) } } := by
  rw [← commitMap_liveClosed, ← commitMap_policy]

/-- Settles O32: the first failing check ends the commit, or the map takes effect as `commitMap` says. -/
theorem aCommitTakesEffectWhole : Obligations.ACommitTakesEffectWhole := by
  unfold Obligations.ACommitTakesEffectWhole
  intro d rest s _ hr hq ends segs g clamped
  change event validationDone s = _
  rw [event_settle]
  cases hv : validate s with
  | some f => rw [validationDone_fails hr hv, refuseHead_cons s hq]; rfl
  | none =>
    rw [validationDone_passes hr hv, endHead_cons _ ((commitMap_queue s).trans hq), commitFlags_eq, commitMap_live]
    rfl

end Sys2Proof.Machine
end

section
/-! SUPPORT. What the checks of MAP_COMMIT say of each entry of a map that passes them. -/

namespace Sys2Proof.Machine

variable {α : Type}

/-! ### Tables -/

/-- An entry that a table reads is listed. -/
theorem mem_of_tget {t : Table (Option α)} {i : Nat} {e : α} (h : tget none t i = some e) : (i, some e) ∈ t := by
  induction t with
  | nil => simp at h
  | cons p t ih =>
    obtain ⟨k, v⟩ := p
    rw [tget_cons] at h
    split at h
    · next hk => simp [hk, h]
    · exact List.mem_cons_of_mem _ (ih h)

/-- Of a table in canonical form the entries read are the entries listed. -/
theorem tget_eq_some_iff [DecidableEq α] {t : Table (Option α)} (hwf : tableWf none t = true) {i : Nat} {e : α} :
    tget none t i = some e ↔ (i, some e) ∈ t := by
  refine ⟨mem_of_tget, fun h => ?_⟩
  induction t with
  | nil => simp at h
  | cons p t ih =>
    obtain ⟨k, v⟩ := p
    simp only [tableWf, Bool.and_eq_true] at hwf
    obtain ⟨⟨habove, -⟩, hwf⟩ := hwf
    rw [tget_cons]
    rcases List.mem_cons.1 h with h | h
    · cases h; exact if_pos rfl
    · have hki : k < i := (tableAbove_iff _ _).1 habove _ h
      rw [if_neg (by omega), ih hwf h]

/-! ### Lists of numbers -/

@[simp] theorem mem_uniq {x : Nat} {l : List Nat} : x ∈ uniq l ↔ x ∈ l := by
  induction l with
  | nil => rfl
  | cons y l ih =>
    rw [uniq]
    split
    · next h => rw [ih, List.mem_cons]; exact ⟨.inr, fun hx => hx.elim (fun e => e ▸ List.contains_iff_mem.1 h) id⟩
    · rw [List.mem_cons, List.mem_cons, ih]

/-- Two different members of a list of two are all of it. -/
theorem mem_pair_iff {l : List Nat} (hl : l.length = 2) {a b : Nat} (hab : a ≠ b) (ha : a ∈ l) (hb : b ∈ l) (q : Nat) :
    q ∈ l ↔ q = a ∨ q = b := by
  match l, hl, ha, hb with
  | [c, d], _, ha, hb =>
    simp only [List.mem_cons, List.not_mem_nil, or_false] at ha hb ⊢
    omega

/-! ### How a check reports -/

theorem firstFailure_eq_none {l : List (Option Failure)} : firstFailure l = none ↔ ∀ c ∈ l, c = none := by
  induction l with
  | nil => simp [firstFailure]
  | cons c l ih => cases c <;> simp [firstFailure, ih]

/-- With no bad entry in a section every entry read from it is as it should be. -/
theorem ok_of_firstBad {sec : Nat} {t : Table (Option α)} {ok : Nat → α → Bool} (h : firstBad sec t ok = none) (i : Nat) (e : α)
    (he : tget none t i = some e) : ok i e = true := by
  simp only [firstBad, Option.map_eq_none_iff, List.find?_eq_none] at h
  simpa using h _ (mem_of_tget he)

/-- What the eight checks say, entry by entry (01 R17 to R21). -/
structure Checked (s : State) : Prop where
  nodeRangeOk : ∀ n e, nodeAt s n = some e → nodeInRange n e = true
  segmentRangeOk : ∀ k e, segAt s k = some e → segmentInRange k e = true
  zoneRangeOk : ∀ z e, zoneAt s z = some e → zoneInRange z e = true
  mergeRangeOk : ∀ m e, mergeAt s m = some e → mergeInRange m e = true
  bayRangeOk : ∀ b e, bayAt s b = some e → bayInRange b e = true
  stationRangeOk : ∀ st e, stationAt s st = some e → stationInRange st e = true
  decodeRangeOk : ∀ i e, tget none s.map.decodes i = some e → decodeInRange i e = true
  routeRangeOk : ∀ i e, tget none s.map.routes i = some e → routeInRange s i e = true
  nodeRefsOk : ∀ n e, nodeAt s n = some e → nodeRefs s n e = true
  segmentRefsOk : ∀ k e, segAt s k = some e → segmentRefs s k e = true
  zoneRefsOk : ∀ z e, zoneAt s z = some e → zoneRefs s z e = true
  mergeRefsOk : ∀ m e, mergeAt s m = some e → mergeRefs s m e = true
  bayZero : bayDefined s 0 = true
  bayRefsOk : ∀ b e, bayAt s b = some e → bayRefs s b e = true
  stationRefsOk : ∀ st e, stationAt s st = some e → stationRefs s st e = true
  decodeRefsOk : ∀ i e, tget none s.map.decodes i = some e → decodeRefs s i e = true
  routeRefsOk : ∀ i e, tget none s.map.routes i = some e → routeRefs s i e = true
  zoneShapeOk : ∀ z e, zoneAt s z = some e → zoneShape s z e = true
  mergeNamedOk : ∀ m e, mergeAt s m = some e → mergeNamed s m e = true
  nodeLoopOk : ∀ n e, nodeAt s n = some e → nodeLoop s n e = true
  bayLoopOk : ∀ b e, bayAt s b = some e → bayLoop s b e = true
  routeConsistentOk : ∀ i e, tget none s.map.routes i = some e → routeConsistent s i e = true
  decodeShapeOk : ∀ i e, tget none s.map.decodes i = some e → decodeShape s i e = true
  stationShapeOk : ∀ st e, stationAt s st = some e → stationShape s st e = true
  capacityFitsOk : ∀ b e, bayAt s b = some e → capacityFits s b e = true
  shelfPlacedOk : ∀ st e, stationAt s st = some e → shelfPlaced s st e = true
  rackFilledOk : ∀ b e, bayAt s b = some e → rackFilled s b e = true

theorem checked_of_validate {s : State} (h : validate s = none) : Checked s := by
  simp only [validate, check1, check2, check3, check4, check5, check6, check7, check8, firstFailure_eq_none,
    List.forall_mem_cons, List.not_mem_nil, false_implies, implies_true, and_true] at h
  obtain ⟨⟨nodes1, segments1, zones1, merges1, bays1, stations1, decodes1, routes1⟩,
    ⟨nodes2, segments2, zones2, merges2, bay0, bays2, stations2, decodes2, routes2⟩,
    ⟨zones3, merges3⟩, ⟨nodes4, bays4⟩, routes5, ⟨decodes6, stations6⟩, bays7, stations8, bays8⟩ := h
  exact
    { nodeRangeOk := ok_of_firstBad nodes1, segmentRangeOk := ok_of_firstBad segments1, zoneRangeOk := ok_of_firstBad zones1,
      mergeRangeOk := ok_of_firstBad merges1, bayRangeOk := ok_of_firstBad bays1, stationRangeOk := ok_of_firstBad stations1,
      decodeRangeOk := ok_of_firstBad decodes1, routeRangeOk := ok_of_firstBad routes1,
      nodeRefsOk := ok_of_firstBad nodes2, segmentRefsOk := ok_of_firstBad segments2, zoneRefsOk := ok_of_firstBad zones2,
      mergeRefsOk := ok_of_firstBad merges2, bayZero := by simpa using bay0, bayRefsOk := ok_of_firstBad bays2,
      stationRefsOk := ok_of_firstBad stations2, decodeRefsOk := ok_of_firstBad decodes2, routeRefsOk := ok_of_firstBad routes2,
      zoneShapeOk := ok_of_firstBad zones3, mergeNamedOk := ok_of_firstBad merges3,
      nodeLoopOk := ok_of_firstBad nodes4, bayLoopOk := ok_of_firstBad bays4, routeConsistentOk := ok_of_firstBad routes5,
      decodeShapeOk := ok_of_firstBad decodes6, stationShapeOk := ok_of_firstBad stations6,
      capacityFitsOk := ok_of_firstBad bays7,
      shelfPlacedOk := ok_of_firstBad stations8, rackFilledOk := ok_of_firstBad bays8 }

end Sys2Proof.Machine
end

section
/-! The loop of a bay, as check 4 follows it (01 R19). -/

namespace Sys2Proof.Machine

/-- The node that a node's loop-next segment leads to, and the segment's length (01 R4). -/
def loopStep (s : State) (n : Nat) : Option Nat := (loopNext s n).bind (segTo s)
def loopStepLength (s : State) (n : Nat) : Nat := segLength s ((loopNext s n).getD 0)

theorem loopStep_of_segment {s : State} {n : Nat} {k : SegmentEntry}
    (h : (nodeAt s n).bind (fun e => segAt s e.loopNext) = some k) :
    loopStep s n = some k.toNode ∧ loopStepLength s n = k.length := by
  obtain ⟨e, hn, hk⟩ := Option.bind_eq_some_iff.1 h
  simp [loopStep, loopStepLength, loopNext, hn, segTo, segLength, hk]

/-- The nodes of a loop followed from `entry` to `n`, the latest first, and the length of the segments between them. -/
structure LoopTrail (s : State) (entry n : Nat) (seen : List Nat) (len : Nat) : Prop where
  head : seen.head? = some n
  last : seen.getLast? = some entry
  nodup : seen.Nodup
  steps : ∀ i, i + 1 < seen.length → loopStep s (seen.getD (i + 1) 0) = some (seen.getD i 0)
  length : (seen.tail.map (loopStepLength s)).sum = len

theorem LoopTrail.entry (s : State) (n : Nat) : LoopTrail s n n [n] 0 :=
  ⟨rfl, rfl, List.pairwise_singleton _ n, fun i h => absurd h (by simp), rfl⟩

/-- A trail goes on to a node that it has not reached. -/
theorem LoopTrail.cons {s : State} {entry n m : Nat} {seen : List Nat} {len : Nat} (h : LoopTrail s entry n seen len)
    (hstep : loopStep s n = some m) (hnew : m ∉ seen) : LoopTrail s entry m (m :: seen) (len + loopStepLength s n) := by
  obtain ⟨hhead, hlast, hnodup, hsteps, hlen⟩ := h
  obtain ⟨rest, rfl⟩ := List.head?_eq_some_iff.1 hhead
  exact
    { head := rfl
      last := by simpa using hlast
      nodup := List.nodup_cons.2 ⟨hnew, hnodup⟩
      steps := fun i hi => match i with
        | 0 => hstep
        | i + 1 => hsteps i (Nat.lt_of_succ_lt_succ hi)
      length := by simp only [List.tail_cons, List.map_cons, List.sum_cons] at hlen ⊢; omega }

/-- Where `loopChain` answers, it has followed a trail to a node whose loop-next segment leads back to the entry node. -/
theorem loopChain_trail {s : State} {entry : Nat} (f n : Nat) (seen : List Nat) (len : Nat) {all : List Nat} {total : Nat}
    (ht : LoopTrail s entry n seen len) (h : loopChain s entry f n seen len = some (all, total)) :
    ∃ m d, LoopTrail s entry m all d ∧ loopStep s m = some entry ∧ total = d + loopStepLength s m := by
  induction f generalizing n seen len with
  | zero => cases h
  | succ f ih =>
    rw [loopChain] at h
    split at h
    · cases h
    · next k hk =>
      obtain ⟨hstep, hlen⟩ := loopStep_of_segment hk
      split at h
      · next hback => cases h; exact ⟨n, len, ht, hback ▸ hstep, by rw [hlen]⟩
      · split at h
        · cases h
        · next hnew => exact ih _ _ _ (hlen ▸ ht.cons hstep (by simpa using hnew)) h

theorem getD_reverse {l : List Nat} {i : Nat} (h : i < l.length) : l.reverse.getD i 0 = l.getD (l.length - 1 - i) 0 := by
  rw [List.getD_eq_getElem?_getD, List.getD_eq_getElem?_getD, List.getElem?_reverse h]

/-- A closed trail, from the entry node on: each node leads to the next, the last to the first. -/
theorem LoopTrail.closed {s : State} {entry m : Nat} {seen : List Nat} {d : Nat} (ht : LoopTrail s entry m seen d)
    (hback : loopStep s m = some entry) :
    ∀ i < seen.reverse.length,
      loopStep s (seen.reverse.getD i 0) = some (seen.reverse.getD ((i + 1) % seen.reverse.length) 0) := by
  intro i hi
  rw [List.length_reverse] at hi ⊢
  rcases Nat.lt_or_ge (i + 1) seen.length with h | h
  · have hidx : seen.length - 1 - i = seen.length - 1 - (i + 1) + 1 := by omega
    rw [Nat.mod_eq_of_lt h, getD_reverse hi, getD_reverse h, hidx]
    exact ht.steps _ (by omega)
  · have hlast : seen.length - 1 - i = 0 := by omega
    have hlen : i + 1 = seen.length := by omega
    have hfirst : seen.getD 0 0 = m := by
      rw [List.getD_eq_getElem?_getD, ← List.head?_eq_getElem?, ht.head]; rfl
    have hentry : seen.getD (seen.length - 1) 0 = entry := by
      rw [List.getD_eq_getElem?_getD, ← List.getLast?_eq_getElem?, ht.last]; rfl
    rw [getD_reverse hi, hlast, hfirst, hlen, Nat.mod_self, getD_reverse (by omega), Nat.sub_zero, hentry]
    exact hback

/-- The lengths of all segments of a closed trail. -/
theorem LoopTrail.sum_reverse {s : State} {entry m : Nat} {seen : List Nat} {d : Nat} (ht : LoopTrail s entry m seen d) :
    (seen.reverse.map (loopStepLength s)).sum = d + loopStepLength s m := by
  obtain ⟨rest, rfl⟩ := List.head?_eq_some_iff.1 ht.head
  have hlen := ht.length
  rw [List.map_reverse, List.sum_reverse]
  simp only [List.tail_cons, List.map_cons, List.sum_cons] at hlen ⊢
  omega

theorem homeBay_eq_some {s : State} {n b : Nat} : homeBay s n = some b ↔ ∃ e, nodeAt s n = some e ∧ homeOf e = some b :=
  Option.bind_eq_some_iff

/-- Every node of a bay is in its list of nodes. -/
theorem mem_nodesOfBay {s : State} {n b : Nat} (h : homeBay s n = some b) : n ∈ nodesOfBay s b := by
  obtain ⟨e, hn, hb⟩ := homeBay_eq_some.1 h
  exact List.mem_filterMap.2 ⟨(n, some e), mem_of_tget hn, if_pos hb⟩

/-- The loop of a bay that passes check 4: from its entry node at position 0, once through every node of the bay. -/
theorem bayLoop_nodes {s : State} {b : Nat} {e : BayEntry} (h : bayLoop s b e = true) :
    homeBay s e.entryNode = some b ∧ (nodeAt s e.entryNode).map (fun x => x.loopPos) = some 0 ∧
      ∃ ns : List Nat, ns.head? = some e.entryNode ∧ ns.Nodup ∧
        (∀ i < ns.length, loopStep s (ns.getD i 0) = some (ns.getD ((i + 1) % ns.length) 0)) ∧
        (ns.map (loopStepLength s)).sum = e.loopLength ∧ ∀ n, homeBay s n = some b → n ∈ ns := by
  simp only [bayLoop, Bool.and_eq_true, decide_eq_true_eq] at h
  obtain ⟨⟨hhome, hpos⟩, hchain⟩ := h
  refine ⟨hhome, ?_, ?_⟩
  · obtain ⟨x, hx, -⟩ := homeBay_eq_some.1 hhome
    simpa [loopPosOf, hx] using hpos
  · split at hchain
    · next seen len hsome =>
      simp only [Bool.and_eq_true, decide_eq_true_eq, List.all_eq_true, List.contains_iff_mem] at hchain
      obtain ⟨hlen, hall⟩ := hchain
      obtain ⟨m, d, ht, hback, rfl⟩ := loopChain_trail _ _ _ _ (LoopTrail.entry s e.entryNode) hsome
      exact ⟨seen.reverse, by rw [List.head?_reverse, ht.last], List.pairwise_reverse.2 (ht.nodup.imp Ne.symm), ht.closed hback,
        ht.sum_reverse.trans hlen, fun n hn => List.mem_reverse.2 (hall n (mem_nodesOfBay hn))⟩
    · cases hchain

end Sys2Proof.Machine
end

section
/-! Zones, merges and racks of a map that passes the checks, and the map as a whole (01 R4 to R10, R18 to R21). -/

namespace Sys2Proof.Machine

variable {s : State}

/-! ### Zones and merges -/

/-- A zone leads to another where one of its segments ends at the from node of one of the other's (01 R6). -/
def leadsInto (s : State) (p z : Nat) : Prop :=
  p ≠ z ∧ ∃ i j x y, segAt s i = some x ∧ segAt s j = some y ∧ x.zone = p ∧ y.zone = z ∧ x.toNode = y.fromNode

/-- The segments of a zone, of a segment table in canonical form. -/
theorem mem_zoneSegments (hwf : tableWf none s.map.segments = true) {z : Nat} {y : SegmentEntry} :
    y ∈ zoneSegments s z ↔ ∃ j, segAt s j = some y ∧ y.zone = z := by
  simp only [zoneSegments, List.mem_filterMap, segAt, tget_eq_some_iff hwf]
  constructor
  · rintro ⟨⟨j, _ | x⟩, hj, h⟩
    · cases h
    · obtain ⟨hz, rfl⟩ : x.zone = z ∧ x = y := by simpa using h
      exact ⟨j, hj, hz⟩
  · rintro ⟨j, hj, hz⟩
    exact ⟨(j, some y), hj, if_pos hz⟩

/-- The predecessor zones are those that lead into the zone. -/
theorem mem_predecessors (hwf : tableWf none s.map.segments = true) {z q : Nat} :
    q ∈ predecessors s z ↔ leadsInto s q z := by
  have hstart (n : Nat) : ((zoneSegments s z).map (fun e => e.fromNode)).contains n = true ↔
      ∃ j y, segAt s j = some y ∧ y.zone = z ∧ n = y.fromNode := by
    simp only [List.contains_iff_mem, List.mem_map, mem_zoneSegments hwf]
    exact ⟨fun ⟨y, ⟨j, hj, hz⟩, hn⟩ => ⟨j, y, hj, hz, hn.symm⟩, fun ⟨j, y, hj, hz, hn⟩ => ⟨y, ⟨j, hj, hz⟩, hn.symm⟩⟩
  simp only [predecessors, mem_uniq, List.mem_filterMap]
  constructor
  · rintro ⟨⟨i, _ | x⟩, hi, h⟩
    · cases h
    · obtain ⟨⟨hne, hto⟩, hq⟩ := Option.ite_none_right_eq_some.1 h
      cases hq
      obtain ⟨j, y, hj, hz, hn⟩ := (hstart _).1 hto
      exact ⟨hne, i, j, x, y, (tget_eq_some_iff hwf).2 hi, hj, rfl, hz, hn⟩
  · rintro ⟨hne, i, j, x, y, hi, hj, rfl, hz, hn⟩
    exact ⟨(i, some x), (tget_eq_some_iff hwf).1 hi, if_pos ⟨hne, (hstart _).2 ⟨j, y, hj, hz, hn⟩⟩⟩

/-- A zone of kind MERGE has as its predecessors the two branches of a merge of its own (01 R19). -/
theorem zoneShape_merge (hwf : tableWf none s.map.segments = true) {z : Nat} {e : ZoneEntry} (hkind : e.kind = 2)
    (h : zoneShape s z e = true) :
    ∃ m, mergeAt s e.merge = some m ∧ m.zone = z ∧ m.predA ≠ m.predB ∧ ∀ q, leadsInto s q z ↔ q = m.predA ∨ q = m.predB := by
  simp only [zoneShape, isMerge, hkind, decide_true, if_true] at h
  split at h
  · next m hm =>
    simp only [Bool.and_eq_true, decide_eq_true_eq, Bool.not_eq_true', decide_eq_false_iff_not, List.contains_iff_mem] at h
    obtain ⟨⟨⟨⟨hlen, hz⟩, hne⟩, ha⟩, hb⟩ := h
    exact ⟨m, hm, hz, hne, fun q => (mem_predecessors hwf).symm.trans (mem_pair_iff hlen hne ha hb q)⟩
  · cases h

/-- A zone of kind PLAIN has one predecessor (01 R19). -/
theorem zoneShape_plain (hwf : tableWf none s.map.segments = true) {z : Nat} {e : ZoneEntry} (hkind : e.kind = 1)
    (h : zoneShape s z e = true) : ∃ p, ∀ q, leadsInto s q z ↔ q = p := by
  simp only [zoneShape, isMerge, hkind, Nat.reduceEqDiff, decide_false, Bool.false_eq_true, if_false, decide_eq_true_eq] at h
  obtain ⟨p, hp⟩ := List.length_eq_one_iff.1 h
  exact ⟨p, fun q => by rw [← mem_predecessors hwf, hp, List.mem_singleton]⟩

/-- A merge is named by one zone (01 R19). -/
theorem mergeNamed_zone (hwf : tableWf none s.map.zones = true) {m : Nat} {e : MergeEntry} (h : mergeNamed s m e = true) :
    ∃ z x, zoneAt s z = some x ∧ x.kind = 2 ∧ x.merge = m ∧
      ∀ w y, zoneAt s w = some y → y.kind = 2 → y.merge = m → w = z := by
  simp only [mergeNamed, decide_eq_true_eq] at h
  obtain ⟨⟨z, v⟩, hl⟩ := List.length_eq_one_iff.1 h
  have hz := hl ▸ List.mem_singleton_self (z, v)
  obtain ⟨hmem, hx⟩ := List.mem_filter.1 hz
  cases v with
  | none => cases hx
  | some x =>
    obtain ⟨hkind, hm⟩ : x.kind = 2 ∧ x.merge = m := by simpa [isMerge] using hx
    refine ⟨z, x, (tget_eq_some_iff hwf).2 hmem, hkind, hm, fun w y hw hk hy => ?_⟩
    have hw' : (w, some y) ∈ [(z, some x)] := by
      rw [← hl]
      exact List.mem_filter.2 ⟨(tget_eq_some_iff hwf).1 hw, by simp [isMerge, hk, hy]⟩
    exact congrArg Prod.fst (List.mem_singleton.1 hw')

end Sys2Proof.Machine
end

section
/-! A map that passes the checks, section by section (01 R4 to R10, R18 to R21). -/

namespace Sys2Proof.Machine

variable {s : State}

/-! ### Nodes and segments -/

/-- The loop-next segment of a node of a bay stays on the bay's loop (01 R4, R19). -/
theorem Checked.node (h : Checked s) {n b : Nat} {e : NodeEntry} (hn : nodeAt s n = some e) (hb : homeBay s n = some b) :
    ∃ k x y, segAt s e.loopNext = some k ∧ k.fromNode = n ∧ nodeAt s k.toNode = some x ∧ homeBay s k.toNode = some b ∧
      bayAt s b = some y ∧ x.loopPos = (e.loopPos + k.length) % y.loopLength ∧ e.loopPos < y.loopLength := by
  have hhome : homeOf e = some b := by simpa [homeBay, hn] using hb
  obtain ⟨hne, rfl⟩ : e.homeBay ≠ noBay ∧ e.homeBay = b := by simpa [homeOf] using hhome
  have hrefs := h.nodeRefsOk n e hn
  simp only [nodeRefs, hne, decide_false, Bool.false_or, Bool.and_eq_true, bayDefined, segDefined,
    Option.isSome_iff_exists] at hrefs
  obtain ⟨⟨y, hy⟩, k, hk⟩ := hrefs
  have hloop := h.nodeLoopOk n e hn
  simp only [nodeLoop, hhome, hk, Bool.and_eq_true, decide_eq_true_eq] at hloop
  obtain ⟨⟨⟨hfrom, hto⟩, hpos⟩, hlt⟩ := hloop
  obtain ⟨x, hx, -⟩ := homeBay_eq_some.1 hto
  exact ⟨k, x, y, hk, hfrom, hx, hto, hy, by simpa [loopPosOf, loopLengthOf, hx, hy] using hpos,
    by simpa [loopLengthOf, hy] using hlt⟩

theorem Checked.segment (h : Checked s) {k : Nat} {e : SegmentEntry} (hk : segAt s k = some e) :
    (nodeAt s e.fromNode).isSome ∧ (nodeAt s e.toNode).isSome ∧ (zoneAt s e.zone).isSome ∧ 1 ≤ e.length := by
  have hrange := h.segmentRangeOk k e hk
  have hrefs := h.segmentRefsOk k e hk
  simp only [segmentInRange, segmentRefs, zoneDefined, nodeDefined, Bool.and_eq_true, decide_eq_true_eq] at hrange hrefs
  obtain ⟨⟨hzone, hfrom⟩, hto⟩ := hrefs
  exact ⟨hfrom, hto, hzone, hrange.2⟩

/-! ### Zones and merges -/

/-- A zone has a bay, a segment, and the predecessors of its kind (01 R6, R18, R19). -/
theorem Checked.zone (h : Checked s) (hwf : tableWf none s.map.segments = true) {z : Nat} {e : ZoneEntry}
    (hz : zoneAt s z = some e) :
    (bayAt s e.bay).isSome ∧ (∃ k x, segAt s k = some x ∧ x.zone = z) ∧
      (e.kind = 1 ∧ (∃ p, ∀ q, leadsInto s q z ↔ q = p) ∨
        e.kind = 2 ∧ ∃ m, mergeAt s e.merge = some m ∧ m.zone = z ∧ m.predA ≠ m.predB ∧
          ∀ q, leadsInto s q z ↔ q = m.predA ∨ q = m.predB) := by
  have hrange := h.zoneRangeOk z e hz
  have hrefs := h.zoneRefsOk z e hz
  simp only [zoneInRange, isMerge, Bool.and_eq_true, Bool.or_eq_true, decide_eq_true_eq] at hrange
  simp only [zoneRefs, bayDefined, Bool.and_eq_true, Bool.not_eq_true', List.isEmpty_eq_false_iff_exists_mem] at hrefs
  obtain ⟨⟨hbay, -⟩, x, hx⟩ := hrefs
  obtain ⟨k, hk, hxz⟩ := (mem_zoneSegments hwf).1 hx
  refine ⟨hbay, ⟨k, x, hk, hxz⟩, ?_⟩
  rcases hrange.2 with hplain | ⟨hmerge, -⟩
  · exact .inl ⟨hplain, zoneShape_plain hwf hplain (h.zoneShapeOk z e hz)⟩
  · exact .inr ⟨hmerge, zoneShape_merge hwf hmerge (h.zoneShapeOk z e hz)⟩

theorem Checked.merge_parkBranch (h : Checked s) {m : Nat} {e : MergeEntry} (hm : mergeAt s m = some e) : e.parkBranch ≤ 1 := by
  have hrange := h.mergeRangeOk m e hm
  simp only [mergeInRange, Bool.and_eq_true, decide_eq_true_eq] at hrange
  exact hrange.2

/-! ### Bays and stations -/

/-- The ranges of a bay's entry (01 R7, R18). -/
theorem Checked.bay_range (h : Checked s) {b : Nat} {e : BayEntry} (hb : bayAt s b = some e) :
    1 ≤ e.capacity ∧ e.capacity ≤ 64 ∧ e.rows ≤ 8 ∧ e.cols ≤ 8 ∧ (e.rows = 0 ↔ e.cols = 0) ∧ 1 ≤ e.loopLength ∧
      e.loopLength ≤ 16777215 ∧ e.parkCount ≤ 8 := by
  have hrange := h.bayRangeOk b e hb
  simp only [bayInRange, Bool.and_eq_true, decide_eq_true_eq, beq_iff_eq, decide_eq_decide] at hrange
  obtain ⟨⟨⟨⟨⟨⟨⟨⟨⟨⟨-, hpark⟩, -⟩, -⟩, hloop⟩, hloop'⟩, hcap⟩, hcap'⟩, hrows⟩, hcols⟩, hrack⟩ := hrange
  exact ⟨hcap, hcap', hrows, hcols, hrack, hloop, hloop', hpark⟩

theorem Checked.bay_parkNodes (h : Checked s) {b : Nat} {e : BayEntry} (hb : bayAt s b = some e) :
    ∀ n ∈ e.parkNodes.take e.parkCount, (nodeAt s n).isSome := by
  have hrefs := h.bayRefsOk b e hb
  simp only [bayRefs, Bool.and_eq_true, List.all_eq_true] at hrefs
  obtain ⟨⟨-, hpark⟩, -⟩ := hrefs
  exact hpark

/-- Every place of a bay's rack is a SHELF of the bay (01 R21); a bay without a rack has no place. -/
theorem Checked.bay_rack (h : Checked s) {b : Nat} {e : BayEntry} (hb : bayAt s b = some e) :
    ∀ st ∈ rackShelves e, ∃ x, stationAt s st = some x ∧ x.kind = 3 ∧ x.bay = b := by
  intro st hst
  have hfilled := h.rackFilledOk b e hb
  have hrack : hasRack e = true := by
    have hne : e.rows * e.cols ≠ 0 := fun h0 => by simp [rackShelves, h0] at hst
    have hrows : e.rows ≠ 0 := fun h0 => hne (by rw [h0, Nat.zero_mul])
    have hcols : e.cols ≠ 0 := fun h0 => hne (by rw [h0, Nat.mul_zero])
    exact Bool.and_eq_true_iff.2 ⟨decide_eq_true hrows, decide_eq_true hcols⟩
  simp only [rackFilled, hrack, Bool.not_true, Bool.false_or, List.all_eq_true, Bool.and_eq_true, decide_eq_true_eq] at hfilled
  obtain ⟨hshelf, hbay⟩ := hfilled st hst
  obtain ⟨x, hx, hxb⟩ := Option.map_eq_some_iff.1 hbay
  exact ⟨x, hx, by simpa [isShelf, hx] using hshelf, hxb⟩

/-- A station's code decodes to it, and its node lies on its bay's loop (01 R8, R21). -/
theorem Checked.station (h : Checked s) {st : Nat} {e : StationEntry} (hst : stationAt s st = some e) :
    decodeCode s e.code = some st ∧ homeBay s e.node = some e.bay ∧ (bayAt s e.bay).isSome ∧
      1 ≤ e.kind ∧ e.kind ≤ 3 ∧ e.initial ≤ 1 := by
  have hrange := h.stationRangeOk st e hst
  have hrefs := h.stationRefsOk st e hst
  have hshape := h.stationShapeOk st e hst
  simp only [stationInRange, stationRefs, stationShape, bayDefined, Bool.and_eq_true, decide_eq_true_eq] at hrange hrefs hshape
  obtain ⟨⟨⟨-, hkind⟩, hkind'⟩, hinitial⟩ := hrange
  exact ⟨hshape.1, hshape.2, hrefs.2, hkind, hkind', hinitial⟩

/-- A SHELF lies at its row and column of its bay's rack (01 R21). -/
theorem Checked.shelf (h : Checked s) {st : Nat} {e : StationEntry} (hst : stationAt s st = some e) (hkind : e.kind = 3) :
    ∃ b, bayAt s e.bay = some b ∧ e.row < b.rows ∧ e.col < b.cols ∧ st = b.firstShelf + e.row * b.cols + e.col := by
  have hplaced := h.shelfPlacedOk st e hst
  simp only [shelfPlaced, hkind, decide_true, Bool.not_true, Bool.false_or] at hplaced
  split at hplaced
  · next b hb =>
    simp only [Bool.and_eq_true, decide_eq_true_eq] at hplaced
    obtain ⟨⟨⟨-, hrow⟩, hcol⟩, hplace⟩ := hplaced
    exact ⟨b, hb, hrow, hcol, hplace⟩
  · cases hplaced

/-! ### Decode entries and routes -/

/-- A decode entry has no base bit outside its mask, and its range holds stations of its bay alone (01 R9, R21). -/
theorem Checked.decode (h : Checked s) {i : Nat} {e : DecodeEntry} (hi : tget none s.map.decodes i = some e) :
    e.base &&& e.mask = e.base ∧ e.first + e.count ≤ 4096 ∧ (bayAt s e.bay).isSome ∧
      ∀ st x, stationAt s st = some x → e.first ≤ st → st < e.first + e.count → x.bay = e.bay := by
  have hrange := h.decodeRangeOk i e hi
  have hshape := h.decodeShapeOk i e hi
  simp only [decodeInRange, Bool.and_eq_true, decide_eq_true_eq] at hrange
  simp only [decodeShape, Bool.and_eq_true, decide_eq_true_eq, List.all_eq_true] at hshape
  refine ⟨hshape.1, hrange.2, h.decodeRefsOk i e hi, fun st x hx hlo hhi => ?_⟩
  simpa [hlo, hhi] using hshape.2 _ (mem_of_tget hx)

/-- A route that is not local goes on to its bay's loop, or as the entry of the node it comes to (01 R10, R20). -/
theorem Checked.route (h : Checked s) {n b : Nat} {e : RouteEntry} (hb : b < 64) (he : routeAt s n b = some e)
    (hlocal : homeBay s n ≠ some b) :
    (bayAt s b).isSome ∧ (nodeAt s e.join).isSome ∧ ∃ k, segAt s e.next = some k ∧ k.fromNode = n ∧
      (homeBay s k.toNode = some b → e.join = k.toNode ∧ e.distance = k.length) ∧
      (homeBay s k.toNode ≠ some b → ∃ x, routeAt s k.toNode b = some x ∧ e.distance = k.length + x.distance ∧
        e.join = x.join) := by
  have hnode : routeIndex n b / 64 = n := by unfold routeIndex; omega
  have hbay : routeIndex n b % 64 = b := by unfold routeIndex; omega
  have hnot : isLocal s (routeIndex n b) = false := by simpa [isLocal, hnode, hbay] using hlocal
  have hrefs := h.routeRefsOk _ e he
  have hcons := h.routeConsistentOk _ e he
  simp only [routeRefs, hnot, hbay, bayDefined, nodeDefined, Bool.false_or, Bool.and_eq_true] at hrefs
  simp only [routeConsistent, hnot, hnode, hbay, Bool.false_or] at hcons
  obtain ⟨⟨-, hjoin⟩, hdest⟩ := hrefs
  refine ⟨hdest, hjoin, ?_⟩
  split at hcons
  · cases hcons
  · next k hk =>
    obtain ⟨hfrom, hrest⟩ := Bool.and_eq_true_iff.1 hcons
    refine ⟨k, hk, of_decide_eq_true hfrom, fun hhome => ?_, fun hhome => ?_⟩
    · simpa [hhome] using hrest
    · rw [if_neg hhome] at hrest
      split at hrest
      · next x hx => exact ⟨x, hx, by simpa using hrest⟩
      · cases hrest

/-- Settles O33: what the checks say of each section, the loops followed from their entry nodes. -/
theorem aValidMapDecodesEveryStation : Obligations.AValidMapDecodesEveryStation := by
  unfold Obligations.AValidMapDecodesEveryStation
  intro s hvalid
  have h := checked_of_validate hvalid
  refine ⟨fun st e hst => ?stations, h.bayZero, fun b e hb => ?bays, fun n e b hn hb => h.node hn hb,
    fun k e hk => h.segment hk, fun hwf z e hz => h.zone hwf hz,
    fun hwf m e hm => ⟨h.merge_parkBranch hm, mergeNamed_zone hwf (h.mergeNamedOk m e hm)⟩,
    fun i e hi => h.decode hi, fun n b e hb he hlocal => h.route hb he hlocal⟩
  case stations =>
    obtain ⟨hcode, hnode, hbay, hkind, hkind', hinitial⟩ := h.station hst
    exact ⟨hcode, hnode, hbay, hkind, hkind', hinitial, h.shelf hst⟩
  case bays =>
    obtain ⟨hcap, hcap', hrows, hcols, hrack, hloop, hloop', hpark⟩ := h.bay_range hb
    exact ⟨of_decide_eq_true (h.capacityFitsOk b e hb), hcap, hcap', hrows, hcols, hrack, hloop, hloop', hpark,
      h.bay_parkNodes hb, h.bay_rack hb, bayLoop_nodes (h.bayLoopOk b e hb)⟩

end Sys2Proof.Machine
end

section
/-! The order of scored candidates (02 R33): total over different vehicles, so exactly one is best. -/

namespace Sys2Proof.Machine

/-- Score first, then direct before chain, then the vehicle number (02 R33). -/
theorem better_iff {a b : Best} : better a b = true ↔
    a.score < b.score ∨ (a.score = b.score ∧ a.kind = .direct ∧ b.kind = .chain) ∨
      (a.score = b.score ∧ a.kind = b.kind ∧ a.vehicle < b.vehicle) := by
  simp only [better, Bool.or_eq_true, Bool.and_eq_true, decide_eq_true_eq, and_or_left]

/-- The place of a candidate's kind at equal scores: direct before chain (02 R33). -/
def kindRank : CandKind → Nat
  | .direct => 0
  | .chain => 1

theorem kindRank_lt_iff {j k : CandKind} : kindRank j < kindRank k ↔ j = .direct ∧ k = .chain := by
  cases j <;> cases k <;> decide
theorem kindRank_eq_iff {j k : CandKind} : kindRank j = kindRank k ↔ j = k := by
  cases j <;> cases k <;> decide

/-- Candidates are compared as numbers, in lexicographic order: by score, by kind, by vehicle. -/
theorem better_iff_rank {a b : Best} : better a b = true ↔
    a.score < b.score ∨ (a.score = b.score ∧ kindRank a.kind < kindRank b.kind) ∨
      (a.score = b.score ∧ kindRank a.kind = kindRank b.kind ∧ a.vehicle < b.vehicle) := by
  rw [better_iff, kindRank_lt_iff, kindRank_eq_iff]

/-- Of two candidates with different vehicles exactly one is better. -/
theorem better_iff_not_better {a b : Best} (h : a.vehicle ≠ b.vehicle) : better a b = true ↔ ¬ better b a = true := by
  rw [better_iff_rank, better_iff_rank]
  omega

theorem better_asymm {a b : Best} (h : better a b = true) : ¬ better b a = true := by
  rw [better_iff_rank] at *
  omega

theorem better_trans {a b c : Best} (hab : better a b = true) (hbc : better b c = true) : better a c = true := by
  rw [better_iff_rank] at *
  omega

/-- Among candidates of different vehicles one is better than every other: the first, or the best of the rest. -/
theorem exists_best {l : List Best} (hne : l ≠ []) (hl : (l.map (fun x => x.vehicle)).Nodup) :
    ∃ a ∈ l, ∀ b ∈ l, b ≠ a → better a b = true := by
  induction l with
  | nil => exact absurd rfl hne
  | cons x l ih =>
    rw [List.map_cons, List.nodup_cons] at hl
    obtain ⟨hx, hl⟩ := hl
    by_cases hnil : l = []
    · subst hnil
      exact ⟨x, List.mem_singleton_self x, fun b hb hbx => absurd (List.mem_singleton.1 hb) hbx⟩
    · obtain ⟨m, hm, hbest⟩ := ih hnil hl
      have hvehicle : x.vehicle ≠ m.vehicle := fun he => hx (he ▸ List.mem_map_of_mem hm)
      by_cases hmx : better m x = true
      · refine ⟨m, List.mem_cons_of_mem x hm, fun b hb hbm => ?_⟩
        rcases List.mem_cons.1 hb with rfl | hb
        · exact hmx
        · exact hbest b hb hbm
      · have hxm : better x m = true := (better_iff_not_better hvehicle).2 hmx
        refine ⟨x, List.mem_cons_self, fun b hb hbx => ?_⟩
        have hb : b ∈ l := (List.mem_cons.1 hb).resolve_left hbx
        by_cases hbm : b = m
        · exact hbm ▸ hxm
        · exact better_trans hxm (hbest b hb hbm)

/-- Settles O57: the best of a list by induction, and no second one, as each of two would be better than the other. -/
theorem theBestCandidateIsUnique : Obligations.TheBestCandidateIsUnique := by
  unfold Obligations.TheBestCandidateIsUnique
  refine ⟨fun a b => better_iff, fun a b => better_iff_not_better, fun a b c => better_trans, fun l hne hl => ?_⟩
  obtain ⟨a, ha, hbest⟩ := exists_best hne hl
  refine ⟨a, ha, hbest, fun c hc hcbest => Classical.byContradiction fun hca => ?_⟩
  exact better_asymm (hbest c hc hca) (hcbest a ha (Ne.symm hca))

end Sys2Proof.Machine
end

section
/-! Traversal learning (02 R36). -/

namespace Sys2Proof.Machine

/-- An eighth of a difference, rounded to nearest with halves up, is the number of whole eighths of it with four added (02 R36). -/
theorem roundedEighth_bounds (d : Int) : 8 * Int.fdiv (d + 4) 8 ≤ d + 4 ∧ d + 4 < 8 * Int.fdiv (d + 4) 8 + 8 := by
  rw [Int.fdiv_eq_ediv_of_nonneg _ (by decide)]
  omega

/-- The learned time after a measurement, as a number: the floor is not negative, so nothing is cut off (02 R36). -/
theorem learn_cast (old floor t : Nat) : (learn old floor t : Int) =
    max (floor : Int) (min ((old : Int) + Int.fdiv ((t : Int) - old + 4) 8) 65535) :=
  Int.toNat_of_nonneg (Int.le_trans (Int.natCast_nonneg floor) (Int.le_max_left _ _))

/-- Settles O58: each clause is arithmetic in the rounded eighth and the clamp. -/
theorem learningMovesAnEighth : Obligations.LearningMovesAnEighth := by
  unfold Obligations.LearningMovesAnEighth
  intro old floor t hfloor hold _ step
  have hlearn : (learn old floor t : Int) = max (floor : Int) (min ((old : Int) + step) 65535) := learn_cast old floor t
  obtain ⟨hlow, hhigh⟩ : 8 * step ≤ (t : Int) - old + 4 ∧ (t : Int) - old + 4 < 8 * step + 8 := roundedEighth_bounds _
  clear_value step
  refine ⟨hlearn, ?_⟩
  omega

end Sys2Proof.Machine
end

section
/-! ROUTE_PATCH: the completion of a staging read and of its checks. -/

namespace Sys2Proof.Machine

variable {s : State} {slot count off : Nat} {rest : List MapDir} {buf : List PatchEntry}

/-- Where no request is left over, those asked for are all there are (log 5). -/
theorem push_quiet (h : Quiet s) (ts : List Task) : push ts s = { s with agenda := ts } := by
  have hagenda : s.agenda = [] := h
  rw [push, hagenda, List.nil_append]

/-- A staging read of a ROUTE_PATCH that is abandoned ends it LOAD_FAULT with the position (02 R39). -/
theorem patchFails_cons {d : MapDir} (hq : s.map.queue = d :: rest) (off i cause : Nat) :
    patchFails off i cause s = push [.mapHead] (endDirective d.slot .refused (some .loadFault) (sectionDetail 8 i) 0
      { logFault cause (patchPlace s off i) s with
        map := { (logFault cause (patchPlace s off i) s).map with queue := rest, run := .idle } }) :=
  refuseHead_cons _ (by rw [logFault_map]; exact hq) ..

theorem patchEntryDone_error (hr : s.map.run = .reading buf)
    (hq : s.map.queue = { slot := slot, op := .patch count off } :: rest) :
    patchEntryDone .error s = patchFails off buf.length 2 s := by
  simp only [patchEntryDone, hr, hq]

section
variable (bs : List Byte) (hr : s.map.run = .reading buf)
  (hq : s.map.queue = { slot := slot, op := .patch count off } :: rest)
include hr hq

/-! An entry that is read joins those before it: the next is read, or after the last all are tested (02 R39, R40). -/

theorem patchEntryDone_more (hmore : (buf ++ [parsePatch bs]).length < count) :
    patchEntryDone (.data bs) s = patchRead off (buf ++ [parsePatch bs]) s := by
  simp only [patchEntryDone, hr, hq, if_pos hmore]

theorem patchEntryDone_bad (hlast : ¬ (buf ++ [parsePatch bs]).length < count) {i : Nat}
    (hbad : badPatch 0 [] (buf ++ [parsePatch bs]) = some i) :
    patchEntryDone (.data bs) s = refuseHead .badOperand i s := by
  simp only [patchEntryDone, hr, hq, if_neg hlast, hbad]

theorem patchEntryDone_good (hlast : ¬ (buf ++ [parsePatch bs]).length < count)
    (hgood : badPatch 0 [] (buf ++ [parsePatch bs]) = none) :
    patchEntryDone (.data bs) s =
      setRun (if s.dsp.evaluating then .waiting (buf ++ [parsePatch bs]) else .checking (buf ++ [parsePatch bs])) s := by
  simp only [patchEntryDone, hr, hq, if_neg hlast, hgood]

end

theorem patchCheckDone_fails {f : Failure} (hr : s.map.run = .checking buf) (hf : checkPatch buf (patched buf s) = some f) :
    patchCheckDone s = refuseHead .mapInconsistent (sectionDetail f.1 f.2) s := by
  simp only [patchCheckDone, hr, hf]

theorem patchCheckDone_passes (hr : s.map.run = .checking buf) (hf : checkPatch buf (patched buf s) = none) :
    patchCheckDone s = endHead .completed none 0 0
      (push (reviseAll (clearStale (patched buf s)) ++ attemptAll (clearStale (patched buf s))) (clearStale (patched buf s))) := by
  simp only [patchCheckDone, hr, hf]

/-- Settles O34: a staging read fails, or its entry joins the patch and the next read, the test of all, or the wait follows; a
check fails, or the patch is applied. -/
theorem aRoutePatchIsAppliedWholeOrNotAtAll : Obligations.ARoutePatchIsAppliedWholeOrNotAtAll := by
  unfold Obligations.ARoutePatchIsAppliedWholeOrNotAtAll
  intro r buf slot count off rest s hquiet hq ends faults
  refine ⟨fun hr => ?reading, ?checking⟩
  case reading =>
    have hruns (run : MapRun) : settle s (setRun run s) = finish s (setRun run s) := settle_quiet (b := setRun run s) hquiet
    change event (patchEntryDone r) s = _
    rw [event_settle]
    cases r with
    | error => rw [patchEntryDone_error hr hq, patchFails_cons hq]; rfl
    | data bs =>
      dsimp only
      by_cases hmore : (buf ++ [parsePatch bs]).length < count
      · rw [if_pos hmore, patchEntryDone_more bs hr hq hmore]
        cases hok : accessOk s (stagingOffset s (off + (buf ++ [parsePatch bs]).length * 16)) 16 with
        | false => rw [if_pos rfl, patchRead_outside s hok, patchFails_cons hq]; rfl
        | true => rw [if_neg (by decide), patchRead_inside s hok, hruns]; rfl
      · rw [if_neg hmore]
        cases hbad : badPatch 0 [] (buf ++ [parsePatch bs]) with
        | some i => rw [patchEntryDone_bad bs hr hq hmore hbad, refuseHead_cons s hq]
        | none => rw [patchEntryDone_good bs hr hq hmore hbad, hruns]; rfl
  case checking =>
    intro hr routes t
    have ht : t = patched buf s := rfl
    clear_value t
    subst ht
    change event patchCheckDone s = _
    rw [event_settle]
    cases hf : checkPatch buf (patched buf s) with
    | some f => rw [patchCheckDone_fails hr hf, refuseHead_cons s hq]; rfl
    | none =>
      have hpatched : Quiet (clearStale (patched buf s)) := hquiet
      rw [patchCheckDone_passes hr hf, push_quiet hpatched, endHead_cons { clearStale (patched buf s) with agenda := _ } hq]
      rfl

end Sys2Proof.Machine
end

section
/-! How a path is extended inside a zone (02 R28; 06 R123, R125). -/

namespace Sys2Proof.Machine

variable {s : State} {g z m k t : Nat} {p : List Nat}

/-! ### The next segment -/

/-- The next segment from a node: none at the target, the loop-next segment on the loop of its bay, else the route's (02 R28). -/
theorem nextSegment_eq (s : State) (m g : Nat) : nextSegment s m g =
    if m = g then none else (homeBay s g).bind (fun b =>
      if homeBay s m = some b then (nodeAt s m).map (fun e => e.loopNext) else (routeAt s m b).map (fun e => e.next)) := by
  unfold nextSegment
  cases homeBay s g <;> rfl

@[simp] theorem nextSegment_target (s : State) (g : Nat) : nextSegment s g g = none := if_pos rfl

/-- A segment that lies in a zone is defined, so it has a to node. -/
theorem segTo_of_segZone (h : segZone s k = some z) : ∃ t, segTo s k = some t := by
  obtain ⟨e, he, -⟩ := Option.map_eq_some_iff.1 h
  exact ⟨e.toNode, by rw [segTo, he]; rfl⟩

/-! ### One segment of an extension -/

theorem extendPath_ends (f : Nat) (h : p.length < 32 → ∀ k, nextSegment s m g = some k → segZone s k ≠ some z) :
    extendPath s g z f m p = p := by
  cases f with
  | zero => rfl
  | succ f =>
    rw [extendPath]
    split
    · rfl
    · next k hk =>
      rw [if_neg]
      rintro ⟨hz, hlen⟩
      exact h hlen k hk hz

theorem extendPath_goes_on (f : Nat) (hk : nextSegment s m g = some k) (hz : segZone s k = some z) (ht : segTo s k = some t)
    (hp : p.length < 32) : extendPath s g z (f + 1) m p = extendPath s g z f t (p ++ [k]) := by
  have hgo : segZone s k = some z ∧ p.length < Config.pathLimit := ⟨hz, hp⟩
  simp only [extendPath, hk, if_pos hgo, ht]

/-- The next segments depend on the map alone, and so does an extension. -/
theorem extendPath_of_map_eq {s t : State} (h : t.map = s.map) (g z f m : Nat) (p : List Nat) :
    extendPath t g z f m p = extendPath s g z f m p := by
  have hnode (n : Nat) : nodeAt t n = nodeAt s n := by simp only [nodeAt, h]
  have hhome (n : Nat) : homeBay t n = homeBay s n := congrArg (·.bind homeOf) (hnode n)
  have hroute (n b : Nat) : routeAt t n b = routeAt s n b := by simp only [routeAt, h]
  have hseg (k : Nat) : segAt t k = segAt s k := by simp only [segAt, h]
  have hnext (n : Nat) : nextSegment t n g = nextSegment s n g := by
    simp only [nextSegment_eq, hnode, hhome, hroute]
  have hzone (k : Nat) : segZone t k = segZone s k := congrArg (Option.map _) (hseg k)
  have hto (k : Nat) : segTo t k = segTo s k := congrArg (Option.map _) (hseg k)
  induction f generalizing m p with
  | zero => rfl
  | succ f ih => simp only [extendPath, hnext, hzone, hto, ih]

/-! ### The segments added -/

/-- The segments `q` follow from a node towards a target inside a zone, as an extension adds them: each is the next segment
from the node the one before it leads to. The extension comes to the node `n`. -/
inductive Trail (s : State) (g z : Nat) : Nat → List Nat → Nat → Prop
  | nil (m : Nat) : Trail s g z m [] m
  | cons {m k t n : Nat} {q : List Nat} (hnext : nextSegment s m g = some k) (hzone : segZone s k = some z)
      (hto : segTo s k = some t) (rest : Trail s g z t q n) : Trail s g z m (k :: q) n

/-- An extension adds a trail, and ends where the path is full or no next segment lies in the zone. -/
theorem extendPath_trail (f : Nat) (hp : p.length ≤ 32) (hf : 32 ≤ p.length + f) :
    ∃ q n, extendPath s g z f m p = p ++ q ∧ (p ++ q).length ≤ 32 ∧ Trail s g z m q n ∧
      ((p ++ q).length < 32 → ∀ k, nextSegment s n g = some k → segZone s k ≠ some z) := by
  induction f generalizing m p with
  | zero =>
    refine ⟨[], m, (List.append_nil p).symm, ?_, .nil m, fun hlt => ?_⟩
    · rwa [List.append_nil]
    · rw [List.append_nil] at hlt
      omega
  | succ f ih =>
    by_cases hgo : p.length < 32 ∧ ∃ k, nextSegment s m g = some k ∧ segZone s k = some z
    · obtain ⟨hlen, k, hk, hz⟩ := hgo
      obtain ⟨t, ht⟩ := segTo_of_segZone hz
      have hlonger : (p ++ [k]).length = p.length + 1 := List.length_append
      have hshort : (p ++ [k]).length ≤ 32 := by omega
      obtain ⟨q, n, hq, hle, htrail, hend⟩ := ih (m := t) (p := p ++ [k]) hshort (by omega)
      rw [List.append_assoc, List.singleton_append] at hq hle hend
      exact ⟨k :: q, n, (extendPath_goes_on f hk hz ht hlen).trans hq, hle, .cons hk hz ht htrail, hend⟩
    · have hend : p.length < 32 → ∀ k, nextSegment s m g = some k → segZone s k ≠ some z :=
        fun hlen k hk hz => hgo ⟨hlen, k, hk, hz⟩
      refine ⟨[], m, ?_, ?_, .nil m, ?_⟩ <;> rw [List.append_nil]
      · exact extendPath_ends _ hend
      · exact hp
      · exact hend

namespace Trail

variable {n : Nat} {q : List Nat} (h : Trail s g z m q n)
include h

theorem zone_of_mem (hk : k ∈ q) : segZone s k = some z := by
  induction h with
  | nil => cases hk
  | cons _ hzone _ _ ih =>
    rcases List.mem_cons.1 hk with rfl | hk
    · exact hzone
    · exact ih hk

/-- Each segment is the next one from the node before it. -/
theorem next_getElem {i : Nat} (hi : i < q.length) :
    ∃ n, (if i = 0 then some m else segTo s (q.getD (i - 1) 0)) = some n ∧ nextSegment s n g = q[i]? := by
  induction h generalizing i with
  | nil => cases hi
  | @cons m k t n q hnext _ hto _ ih =>
    cases i with
    | zero => exact ⟨m, rfl, hnext⟩
    | succ i =>
      obtain ⟨n, hn, hq⟩ := ih (Nat.lt_of_succ_lt_succ hi)
      refine ⟨n, ?_, hq⟩
      cases i with
      | zero => exact hto.trans hn
      | succ i => exact hn

/-- A trail from the target is empty, so it does not go on from a segment that ends there. -/
theorem eq_nil_of_target (hm : m = g) : q = [] := by
  subst hm
  cases h with
  | nil => rfl
  | cons hnext =>
    rw [nextSegment_target] at hnext
    cases hnext

theorem segTo_ne_target (hk : k ∈ q.dropLast) : segTo s k ≠ some g := by
  induction h with
  | nil => cases hk
  | @cons m j t n q _ _ hto rest ih =>
    cases q with
    | nil => cases hk
    | cons i q =>
      rcases List.mem_cons.1 hk with rfl | hk
      · intro hg
        have htarget : t = g := Option.some.inj (hto.symm.trans hg)
        cases rest.eq_nil_of_target htarget
      · exact ih hk

/-- The node a trail comes to: its last segment's to node, or where it began. -/
theorem end_node : q.getLast?.elim (some m) (segTo s) = some n := by
  induction h with
  | nil => rfl
  | @cons m k t n q _ _ hto _ ih =>
    cases q with
    | nil => exact hto.trans ih
    | cons j q => rw [List.getLast?_cons_cons]; exact ih

end Trail

end Sys2Proof.Machine
end

section
/-! Zone requests, grants and releases (06 R123 to R128). -/

namespace Sys2Proof.Machine

variable {s : State} {v z : Nat} {e : ZoneEntry}

/-! ### Zones -/

theorem zoneBay_of_zoneAt (hz : zoneAt s z = some e) : zoneBay s z = some e.bay := congrArg (Option.map _) hz

/-- The bay condition: the bay has room, or already has the vehicle (06 R124). -/
theorem bayCondition_of_zoneAt (hz : zoneAt s z = some e) (v : Nat) :
    bayCondition s v z = (holdsBay s v e.bay || decide (occupancy s e.bay < capacityOf s e.bay)) := by
  simp only [bayCondition, zoneBay_of_zoneAt hz]

/-- Where nobody waits, the end of a wait changes nothing. -/
theorem removeWait_none (hs : Sound s) (hw : (zoneRec s z).waiters = []) : removeWait v z s = s := by
  have hself : putZone z (zoneRec s z) s = s := by rw [putZone, zoneRec, tset_self _ _ hs.zones]
  rw [removeWait, hw, List.filter_nil, if_pos rfl, ← hw]
  exact hself

theorem takeZone_none (hs : Sound s) (hw : (zoneRec s z).waiters = []) :
    takeZone v z s = putZone z { zoneRec s z with holder := some v } s := by
  rw [takeZone, removeWait_none hs hw]

/-! ### Requests -/

/-- A zone that is not OPEN or has a holder takes the vehicle as its last waiter (06 R124, R126). -/
theorem request_not_free (h : (zoneRec s z).live ≠ .opened ∨ (zoneRec s z).holder.isSome = true) :
    request v z s = appendWaiter v z s := if_pos h

/-- A free PLAIN zone is granted under the bay condition, else the vehicle waits (06 R124). -/
theorem request_plain (hz : zoneAt s z = some e) (hkind : e.kind ≠ 2) (hlive : (zoneRec s z).live = .opened)
    (hfree : (zoneRec s z).holder = none) :
    request v z s = if bayCondition s v z = true then grant v z s else appendWaiter v z s := by
  have hplain : isMerge e = false := decide_eq_false hkind
  simp only [request, hlive, hfree, hz, hplain, ne_eq, not_true_eq_false, Option.isSome_none, Bool.false_eq_true, or_self,
    if_false]

/-- An extension of a vehicle's path inside a zone (06 R123, R125). -/
theorem extendIn_of_limit {m g : Nat} (hm : limitOf s (veh s v) = some m) (hg : (veh s v).target = some g) (z : Nat) :
    extendIn v z s =
      queueGrant v (putVeh v { veh s v with path := extendPath s g z 32 m (veh s v).path } s) := by
  simp only [extendIn, hm, hg, Config.pathLimit]

/-- A grant of a zone nobody waits for (06 R125). -/
theorem grant_none {m g : Nat} (hs : Sound s) (hw : (zoneRec s z).waiters = []) (hm : limitOf s (veh s v) = some m)
    (hg : (veh s v).target = some g) :
    grant v z s = push [.attempt v] (queueGrant v
      (putVeh v { veh s v with path := extendPath s g z 32 m (veh s v).path }
        (putZone z { zoneRec s z with holder := some v } s))) := by
  rw [grant, takeZone_none hs hw, extendIn_of_limit (s := putZone z _ s) hm hg,
    extendPath_of_map_eq (putZone_map s z { zoneRec s z with holder := some v })]
  rfl

/-! ### Releases -/

/-- What the release of a zone of a bay asks for beside serving it: the waits of a bay whose occupancy fell (06 R128, R130). -/
def bayFell (b : Nat) (s t : State) : List Task := if occupancy t b < occupancy s b then [.reexamine b] else []

theorem release_not_held (h : (zoneRec s z).holder ≠ some v) : release v z s = s := if_pos h

section
variable {b : Nat} (hb : zoneBay s z = some b) (hv : (zoneRec s z).holder = some v)
include hb hv

theorem release_opened (hlive : (zoneRec s z).live = .opened) :
    let free := putZone z { zoneRec s z with holder := none } s
    release v z s = push (.serve z false :: bayFell b s free) free := by
  simp only [release, hv, hlive, hb, bayFell, ne_eq, not_true_eq_false, if_false]
  cases (zoneRec s z).closingOrder <;> rfl

theorem release_closing (hlive : (zoneRec s z).live = .closing) :
    let free := putZone z { zoneRec s z with holder := none, live := .closed, closingOrder := none } s
    release v z s = push (bayFell b s free)
      ((zoneRec s z).closingOrder.elim free (fun k => endDirective k .completed none 0 0 free)) := by
  simp only [release, hv, hlive, hb, bayFell, ne_eq, not_true_eq_false, if_false]
  cases (zoneRec s z).closingOrder <;> rfl

end

/-- Settles O54: a request's cases and the grant it makes, the trail an extension adds, a release by the zone's live state. -/
theorem zonesAreRequestedGrantedAndReleased : Obligations.ZonesAreRequestedGrantedAndReleased := by
  unfold Obligations.ZonesAreRequestedGrantedAndReleased
  refine ⟨fun v z e s hs hz => ?requested, fun s g z m p hp => ?extended, fun v z s => ?released⟩
  case requested =>
    have hmeets := bayCondition_of_zoneAt hz v
    refine ⟨fun h => ?waits, fun hlive hfree hkind hroom hw m g hm hg => ?granted⟩
    case waits =>
      change request v z s = appendWaiter v z s
      by_cases hheld : (zoneRec s z).live ≠ .opened ∨ (zoneRec s z).holder.isSome = true
      · exact request_not_free hheld
      · obtain ⟨hlive, hholder⟩ := not_or.1 hheld
        obtain ⟨hkind, hroom⟩ := (h.resolve_left hlive).resolve_left hholder
        rw [request_plain hz hkind (Classical.not_not.1 hlive) (Option.not_isSome_iff_eq_none.1 hholder), hmeets]
        exact if_neg (Bool.eq_false_iff.1 hroom)
    case granted =>
      rw [request_plain hz hkind hlive hfree, hmeets]
      exact (if_pos hroom).trans (grant_none hs hw hm hg)
  case extended =>
    obtain ⟨q, n, hq, hlen, htrail, hend⟩ := extendPath_trail (s := s) (g := g) (z := z) (m := m) 32 hp (by omega)
    simp only [← nextSegment_eq]
    refine ⟨q, hq, hlen, fun k hk => htrail.zone_of_mem hk, fun i hi => htrail.next_getElem hi,
      fun k hk => htrail.segTo_ne_target hk, htrail.eq_nil_of_target, fun hlt => ⟨n, ?_, hend hlt⟩⟩
    have hn := htrail.end_node
    cases hlast : q.getLast? <;> rw [hlast] at hn <;> exact hn
  case released =>
    refine ⟨release_not_held, fun hv b hb => ⟨fun hlive => ?opened, fun hlive => ?closing⟩⟩
    case opened => rw [release_opened hb hv hlive]; simp only [hlive]; rfl
    case closing =>
      rw [release_closing hb hv hlive]
      cases (zoneRec s z).closingOrder <;> rfl

end Sys2Proof.Machine
end

section
/-! SUPPORT. Which window writes an act calls for, record by record, and how those of several acts join (10 R193, R195). -/

namespace Sys2Proof.Machine

variable {α : Type} {a b s : State}

/-! ### Lists of indexes -/

@[simp] theorem mem_sortNat {x : Nat} {l : List Nat} : x ∈ sortNat l ↔ x ∈ l := by
  have hinsert (y : Nat) (m : List Nat) : x ∈ insertNat y m ↔ x = y ∨ x ∈ m := by
    induction m with
    | nil => simp [insertNat]
    | cons z m ih =>
      rw [insertNat]
      split
      · simp
      · rw [List.mem_cons, List.mem_cons, ih]; exact or_left_comm
  induction l with
  | nil => rfl
  | cons y l ih => rw [sortNat, List.foldr_cons, hinsert, List.mem_cons]; exact or_congr_right ih

/-- An index at which two tables read different entries is one of those that changed. -/
theorem mem_changedKeys [DecidableEq α] {d : α} {t u : Table α} {i : Nat} (h : tget d t i ≠ tget d u i) :
    i ∈ changedKeys d t u := by
  have htu : t ≠ u := fun e => h (e ▸ rfl)
  have hkey : i ∈ tkeys t ∨ i ∈ tkeys u := Classical.byContradiction fun hnone => by
    obtain ⟨ht, hu⟩ := not_or.1 hnone
    exact h ((tget_of_not_mem d ht).trans (tget_of_not_mem d hu).symm)
  rw [changedKeys, if_neg htu]
  simpa [h] using hkey

/-! ### Joining -/

theorem hasCause_joinCauses (x y : Causes) (c : Cause) :
    hasCause (joinCauses x y) c = (hasCause x c || hasCause y c) := by
  cases c <;> rfl

/-- Among the writes `l` the record of `p` is written, carrying at least its causes. -/
def Covered (p : WinRec × Causes) (l : List (WinRec × Causes)) : Prop :=
  ∃ q ∈ l, q.1 = p.1 ∧ ∀ c : Cause, hasCause p.2 c = true → hasCause q.2 c = true

theorem covered_of_mem {p : WinRec × Causes} {l : List (WinRec × Causes)} (h : p ∈ l) : Covered p l := ⟨p, h, rfl, fun _ hc => hc⟩

theorem Covered.cons {p q : WinRec × Causes} {l : List (WinRec × Causes)} (h : Covered p l) : Covered p (q :: l) :=
  have ⟨x, hx, hrest⟩ := h
  ⟨x, List.mem_cons_of_mem _ hx, hrest⟩

theorem covered_defer_self (r : WinRec) (cs : Causes) (l : List (WinRec × Causes)) : Covered (r, cs) (defer r cs l) := by
  induction l with
  | nil => exact covered_of_mem (by simp [defer])
  | cons p l ih =>
    rw [defer]
    split
    · next h => exact ⟨_, List.mem_cons_self, h, fun c hc => by rw [hasCause_joinCauses, hc, Bool.or_true]⟩
    · exact ih.cons

theorem Covered.defer {p : WinRec × Causes} {l : List (WinRec × Causes)} (h : Covered p l) (r : WinRec) (cs : Causes) :
    Covered p (defer r cs l) := by
  induction l with
  | nil => obtain ⟨q, hq, -⟩ := h; simp at hq
  | cons x l ih =>
    obtain ⟨q, hq, hrec, hcauses⟩ := h
    rw [Machine.defer]
    rcases List.mem_cons.1 hq with rfl | hq
    · split
      · exact ⟨_, List.mem_cons_self, hrec, fun c hc => by rw [hasCause_joinCauses, hcauses c hc, Bool.true_or]⟩
      · exact ⟨q, List.mem_cons_self, hrec, hcauses⟩
    · split
      · exact ⟨q, List.mem_cons_of_mem _ hq, hrec, hcauses⟩
      · exact (ih ⟨q, hq, hrec, hcauses⟩).cons

/-- Of the writes of two runs of acts every one is made, with its causes (log 10). -/
theorem covered_joinDues {first later : List (WinRec × Causes)} {p : WinRec × Causes} (h : Covered p first ∨ p ∈ later) :
    Covered p (joinDues first later) := by
  induction later generalizing first with
  | nil => simpa using h
  | cons q later ih =>
    refine ih ?_
    rcases h with h | h
    · exact .inl (h.defer q.1 q.2)
    · rcases List.mem_cons.1 h with rfl | h
      · exact .inl (covered_defer_self p.1 p.2 first)
      · exact .inr h

/-! ### What falls due -/

theorem mem_dues_of_slot {p : WinRec × Causes} (h : p ∈ slotDues a b) : p ∈ dues a b := by simp [dues, h]
theorem mem_dues_of_vehicle {p : WinRec × Causes} (h : p ∈ vehicleDues a b) : p ∈ dues a b := by simp [dues, h]
theorem mem_dues_of_track {p : WinRec × Causes} (h : p ∈ trackDues a b) : p ∈ dues a b := by simp [dues, h]
theorem mem_dues_of_status {p : WinRec × Causes} (h : p ∈ statusDues a b) : p ∈ dues a b := by simp [dues, h]

theorem mem_slotDues {k : Nat} (hkey : liveAt a k ≠ liveAt b k ∨ slotDueAt a k ≠ slotDueAt b k)
    (h : slotChanged a b k = true) :
    (WinRec.slot k, ({ order := (slotDueAt b k).final.isSome } : Causes)) ∈ dues a b := by
  refine mem_dues_of_slot (List.mem_map.2 ⟨k, ?_, rfl⟩)
  simpa [h] using hkey.imp mem_changedKeys mem_changedKeys

/-- A slot's write falls due as TAKEN or a result comes to be owed (10 R188). -/
theorem slot_due_of_owed {k : Nat} (howed : slotDueAt b k ≠ {}) (h : slotDueAt a k ≠ slotDueAt b k) :
    (WinRec.slot k, ({ order := (slotDueAt b k).final.isSome } : Causes)) ∈ dues a b :=
  mem_slotDues (.inr h) (by simp [slotChanged, howed, h])

theorem orderStateCode_injective : Function.Injective orderStateCode := by
  intro x y h
  cases x <;> cases y <;> cases h <;> rfl

theorem orderAt_eq_some {k : Nat} {r : OrderRec} : orderAt s k = some r ↔ liveAt s k = some (.move r) := by
  unfold orderAt
  split
  · next h => simp [h]
  · next h => simpa using h r

theorem shelfChosen_of_orderFlags {x y : OrderRec} (h : orderFlags x = orderFlags y) : x.shelfChosen = y.shelfChosen := by
  have hbits (r : OrderRec) : (orderFlags r).testBit 2 = r.shelfChosen := by
    rw [orderFlags]
    cases r.classClamped <;> cases r.cancelTooLate <;> cases r.shelfChosen <;> rfl
  rw [← hbits x, ← hbits y, h]

/-- A slot's write falls due at a change of what its progress shows (03 R53). -/
theorem slot_due_of_progress {k : Nat} {x y : OrderRec} (hx : orderAt a k = some x) (hy : orderAt b k = some y)
    (h : liveProgress (.move x) ≠ liveProgress (.move y)) :
    (WinRec.slot k, ({ order := (slotDueAt b k).final.isSome } : Causes)) ∈ dues a b := by
  rw [orderAt_eq_some] at hx hy
  have hlive : liveAt a k ≠ liveAt b k := by
    rw [hx, hy]
    exact fun e => h (congrArg liveProgress (Option.some.inj e))
  exact mem_slotDues (.inl hlive) (by simp [slotChanged, hx, hy, h])

theorem vehicle_due {v : Nat} (h : shown (veh a v) ≠ shown (veh b v)) :
    (WinRec.vehicle v, fleetCause (veh a v) (veh b v)) ∈ dues a b := by
  have hveh : tget {} a.flt.vehicles v ≠ tget {} b.flt.vehicles v := fun e => h (congrArg shown e)
  refine mem_dues_of_vehicle (List.mem_map.2 ⟨v, ?_, rfl⟩)
  simpa [h] using mem_changedKeys hveh

theorem fleetCause_eq (x y : Vehicle) : fleetCause x y =
    { fleet := !decide (x.state = y.state ∧ x.uncertain = y.uncertain ∧ x.quarantined = y.quarantined) } := by
  simp [fleetCause, Bool.or_assoc]

theorem zone_due (hcom : committed a = committed b) {z : Nat} (h : zoneRec a z ≠ zoneRec b z ∨ z ∈ arbiterZones a b) :
    (WinRec.zone z, trackCause (zoneRec a z) (zoneRec b z)) ∈ dues a b := by
  refine mem_dues_of_track ?_
  rw [trackDues, if_pos hcom]
  refine List.mem_append_left _ (List.mem_map.2 ⟨z, ?_, rfl⟩)
  simpa using h.imp_left mem_changedKeys

theorem mem_arbiterZones {m : Nat} {e : MergeEntry} (h : arbiterAt a m ≠ arbiterAt b m) (he : mergeAt b m = some e) :
    e.zone ∈ arbiterZones a b :=
  List.mem_filterMap.2 ⟨m, mem_changedKeys h, by rw [he]; rfl⟩

/-- TRACK is raised for a change of live state or a newly set stall mark (06 R118, R138). -/
theorem trackCause_track {x y : ZoneRec} : (trackCause x y).track = true ↔ x.live ≠ y.live ∨
    ∃ w ∈ y.waiters, w.stalled = true ∧ ∀ u ∈ x.waiters, u.vehicle = w.vehicle → u.stalled = false := by
  simp [trackCause, newlyStalled]

theorem shelf_due (hcom : committed a = committed b) {st : Nat} (h : shelfAt a st ≠ shelfAt b st ∨
    isShelf b st = true ∧ stationClosed a st ≠ stationClosed b st) : (WinRec.shelf st, ({} : Causes)) ∈ dues a b := by
  refine mem_dues_of_track ?_
  rw [trackDues, if_pos hcom]
  refine List.mem_append_right _ (List.mem_map.2 ⟨st, ?_, rfl⟩)
  have hkeys := h.imp mem_changedKeys (And.imp_right mem_changedKeys)
  simpa [and_comm] using hkeys

theorem allTrack_due (hcom : committed a ≠ committed b) {p : WinRec × Causes} (h : p ∈ allTrack) : p ∈ dues a b :=
  mem_dues_of_track (by rwa [trackDues, if_neg hcom])

/-- The occupancy of a bay follows from the phase, the zones of the map and their records (06 R120). -/
theorem occupancy_congr (hmap : a.map.zones = b.map.zones) (hzones : a.zones = b.zones) (hcom : committed a = committed b)
    (i : Nat) : occupancy a i = occupancy b i := by
  have hbay : zoneBay a = zoneBay b := by
    funext z
    rw [zoneBay, zoneBay, zoneAt, zoneAt, hmap]
  rw [occupancy, occupancy, hzones, hcom, hbay]

theorem status_due (hmap : a.map.zones = b.map.zones) {i : Nat} (hi : i < 64) (h : occupancy a i ≠ occupancy b i) :
    (WinRec.status, ({} : Causes)) ∈ dues a b := by
  have hmoved : ¬ (a.zones = b.zones ∧ committed a = committed b) := fun ⟨hzones, hcom⟩ => h (occupancy_congr hmap hzones hcom i)
  have hchanged : occupancyChanged a b = true := by
    simp only [occupancyChanged, hmoved, decide_false, Bool.not_false, Bool.true_and, List.any_eq_true]
    exact ⟨i, List.mem_range.2 hi, by simp [h]⟩
  refine mem_dues_of_status ?_
  rw [statusDues, if_pos hchanged]
  exact List.mem_singleton_self _

/-! ### Under HOLD -/

/-- The state with writes added to the deferred ones. -/
def deferring (l : List (WinRec × Causes)) (s : State) : State :=
  { s with win := { s.win with deferred := l.foldl (fun q p => defer p.1 p.2 q) s.win.deferred } }

@[simp] theorem deferring_nil (s : State) : deferring [] s = s := rfl
theorem deferring_append (l m : List (WinRec × Causes)) (s : State) :
    deferring (l ++ m) s = deferring m (deferring l s) := by
  rw [deferring, List.foldl_append]; rfl

theorem schedule_held (h : s.win.hold = true) (r : WinRec) (cs : Causes) : schedule r cs s = deferring [(r, cs)] s := by
  rw [schedule, h]; rfl

theorem scheduleAll_held (h : s.win.hold = true) (l : List (WinRec × Causes)) : scheduleAll l s = deferring l s := by
  induction l generalizing s with
  | nil => rfl
  | cons p l ih =>
    calc scheduleAll (p :: l) s = scheduleAll l (schedule p.1 p.2 s) := rfl
      _ = scheduleAll l (deferring [p] s) := by rw [schedule_held h]
      _ = deferring l (deferring [p] s) := ih (s := deferring [p] s) h
      _ = deferring (p :: l) s := (deferring_append [p] l s).symm

/-- The status block's write is the last to fall due of an act's, and carries no cause. -/
theorem dues_eq (a b : State) : ∃ l, (∀ p ∈ l, p.1 ≠ .status) ∧ dues a b = l ++ statusDues a b := by
  refine ⟨slotDues a b ++ vehicleDues a b ++ trackDues a b, fun p hp => ?_, rfl⟩
  simp only [List.mem_append] at hp
  rcases hp with (hp | hp) | hp
  · obtain ⟨k, -, rfl⟩ := List.mem_map.1 hp; exact WinRec.noConfusion
  · obtain ⟨v, -, rfl⟩ := List.mem_map.1 hp; exact WinRec.noConfusion
  · unfold trackDues at hp
    split at hp <;> rcases List.mem_append.1 hp with hp | hp <;> obtain ⟨k, -, rfl⟩ := List.mem_map.1 hp <;>
      exact WinRec.noConfusion

theorem settleLog_same (n : Nat) {old : Option LogRecord} (h : s.win.log = old) : settleLog n old s = s := by
  cases n with
  | zero => rfl
  | succ n => exact if_pos h

/-- Under HOLD an act that logs nothing leaves its writes deferred, one a record, and does nothing else (10 R193). -/
theorem finish_held (ha : a.win.engine = .running) (hb : b.win.engine = .running) (hhold : b.win.hold = true)
    (hlog : b.win.log = a.win.log) : finish a b = deferring (dues a b) b := by
  obtain ⟨l, hl, hdues⟩ := dues_eq a b
  have hfilter : l.filter (fun p => !decide (p.1 = .status)) = l := List.filter_eq_self.2 (fun p hp => by simp [hl p hp])
  have hany : l.any (fun p => decide (p.1 = .status)) = false := List.any_eq_false.2 (fun p hp => by simp [hl p hp])
  have hrecords : scheduleAll l b = deferring l b := scheduleAll_held hhold l
  have hstatus : schedule .status noCauses (deferring l b) = deferring [(.status, noCauses)] (deferring l b) :=
    schedule_held (s := deferring l b) hhold _ _
  have hlogged : (deferring l b).win.log = a.win.log := hlog
  have hlogged' : (deferring [(.status, noCauses)] (deferring l b)).win.log = a.win.log := hlog
  rw [finish, finishWith, if_neg (Classical.not_not.2 hb), if_neg (Classical.not_not.2 ha), scheduleDues, hdues, deferring_append]
  by_cases hocc : occupancyChanged a b = true
  · simp [statusDues, hocc, hfilter, hrecords, hlogged, hstatus, settleLog_same _ hlogged']
  · simp [statusDues, hocc, hfilter, hany, hrecords, settleLog_same _ hlogged]

/-- Settles O8: what `finish` does under HOLD, then a membership in `dues` for each record, and the join of several acts. -/
theorem holdDefersEveryWrite : Obligations.HoldDefersEveryWrite := by
  unfold Obligations.HoldDefersEveryWrite
  refine ⟨fun a b => finish_held, fun a b k _ _ => slot_due_of_owed, fun a b k x y _ _ hx hy h => ?progress,
    fun a b v _ _ => ?vehicle, fun a b z _ _ hcom => ?zone, fun a b st _ _ hcom h => ?shelf, fun a b hcom => ?map,
    fun a b i hmap => status_due hmap, dues_self, fun first later p h => ?joined⟩
  case progress =>
    refine slot_due_of_progress hx hy fun e => ?_
    simp only [liveProgress, moveProgress, Progress.mk.injEq] at e
    obtain ⟨hstate, hflags, hveh, hshelf, htaken, hassigned, hloaded, -, -⟩ := e
    simp [orderStateCode_injective hstate, shelfChosen_of_orderFlags hflags, hveh, hshelf, htaken, hassigned, hloaded] at h
  case vehicle =>
    intro mirrored x y h
    rw [← fleetCause_eq]
    exact vehicle_due h
  case zone =>
    intro x y stalls h
    have hzone : x ≠ y ∨ z ∈ arbiterZones a b := h.imp_right (by rintro ⟨m, e, -, -, harb, he, rfl⟩; exact mem_arbiterZones harb he)
    exact ⟨_, trackCause_track, zone_due hcom hzone⟩
  case shelf => exact shelf_due hcom (h.imp_right (fun ⟨hshelf, _, _, hclosed⟩ => ⟨hshelf, hclosed⟩))
  case map =>
    refine ⟨fun z hz => allTrack_due hcom (List.mem_append_left _ ?_), fun st hst => allTrack_due hcom (List.mem_append_right _ ?_)⟩
    · exact List.mem_map.2 ⟨z, List.mem_range.2 hz, rfl⟩
    · exact List.mem_map.2 ⟨st, List.mem_range.2 hst, rfl⟩
  case joined => exact covered_joinDues (h.imp_left covered_of_mem)

end Sys2Proof.Machine
end

section
/-! SUPPORT. What the end of a MOVE leaves of orders, shelves and vehicles (03 R62, R63). -/

namespace Sys2Proof.Machine

variable {s t u : State}

/-! ### Reads of canonical tables -/

theorem tget_of_mem {α : Type} [DecidableEq α] {d : α} {t : Table α} (hwf : tableWf d t = true) {i : Nat} {e : α}
    (h : (i, e) ∈ t) : tget d t i = e := by
  induction t with
  | nil => simp at h
  | cons p t ih =>
    obtain ⟨k, v⟩ := p
    simp only [tableWf, Bool.and_eq_true] at hwf
    obtain ⟨⟨habove, -⟩, hwf⟩ := hwf
    rw [tget_cons]
    rcases List.mem_cons.1 h with h | h
    · cases h; exact if_pos rfl
    · have hki : k < i := (tableAbove_iff _ _).1 habove _ h
      rw [if_neg (by omega), ih hwf h]

theorem mem_of_tget_ne {α : Type} {d : α} {t : Table α} {i : Nat} (h : tget d t i ≠ d) : (i, tget d t i) ∈ t := by
  induction t with
  | nil => exact absurd rfl h
  | cons p t ih =>
    obtain ⟨k, v⟩ := p
    rw [tget_cons] at h ⊢
    split
    · next hk => exact hk ▸ List.mem_cons_self
    · next hk => exact List.mem_cons_of_mem _ (ih (by rwa [if_neg hk] at h))

theorem tget_map {α β : Type} {d : α} {e : β} {f : α → β} (hf : f d = e) (t : Table α) (i : Nat) :
    tget e (t.map (fun p => (p.1, f p.2))) i = f (tget d t i) := by
  induction t with
  | nil => exact hf.symm
  | cons p t ih => rw [List.map_cons, tget_cons, tget_cons, ih, apply_ite f]

theorem Sound.veh_putVeh (hs : Sound s) (v : Nat) (r : Vehicle) : veh (putVeh v r s) v = r := by
  rw [veh, putVeh_flt]; exact tget_tset_same _ _ _ hs.vehicles

theorem Sound.shelfAt_putShelf (hs : Sound s) (st : Nat) (x : Shelf) : shelfAt (putShelf st x s) st = x := by
  rw [shelfAt, putShelf_buf]; exact tget_tset_same _ _ _ hs.shelves

theorem Sound.liveAt_putLive (hs : Sound s) (k : Nat) (l : Option Live) : liveAt (putLive k l s) k = l :=
  tget_tset_same _ _ _ hs.orders

/-! ### Each read depends on its own field -/

theorem veh_congr (h : t.flt = s.flt) (v : Nat) : veh t v = veh s v := by rw [veh, veh, h]
theorem shelfAt_congr (h : t.buf = s.buf) (st : Nat) : shelfAt t st = shelfAt s st := by rw [shelfAt, shelfAt, h]
theorem slotDueAt_congr (h : t.win = s.win) (k : Nat) : slotDueAt t k = slotDueAt s k := by rw [slotDueAt, slotDueAt, h]
theorem orderAt_congr {k : Nat} (h : liveAt t k = liveAt s k) : orderAt t k = orderAt s k := by rw [orderAt, orderAt, h]

/-! ### Changes of which the orders are at most told -/

/-- The record of a live MOVE but for its stale flag. -/
def orderButStale (s : State) (j : Nat) : Option OrderRec := (orderAt s j).map (fun r => { r with stale := false })

/-- From `s` to `t` at most vehicles, shelves and links change: WIN and the evaluated order stay, and the orders but for
their stale flags. -/
structure Tells (s t : State) : Prop where
  win : t.win = s.win
  evaluated : t.dsp.order = s.dsp.order
  orders : ∀ j, orderButStale t j = orderButStale s j

theorem Tells.refl (s : State) : Tells s s := ⟨rfl, rfl, fun _ => rfl⟩

theorem orderButStale_of_orders_eq (h : u.orders = t.orders) (j : Nat) : orderButStale u j = orderButStale t j := by
  have hlive : liveAt u j = liveAt t j := by rw [liveAt, liveAt, h]
  rw [orderButStale, orderButStale, orderAt_congr hlive]

theorem Tells.of_eq (h : Tells s t) (hwin : u.win = t.win) (hdsp : u.dsp.order = t.dsp.order) (horders : u.orders = t.orders) :
    Tells s u :=
  ⟨hwin.trans h.win, hdsp.trans h.evaluated, fun j => (orderButStale_of_orders_eq horders j).trans (h.orders j)⟩

/-- A live order as a fleet availability change leaves it (04 R72). -/
def told : Option Live → Option Live
  | some (.move r) => some (.move (if r.state = .pending then { r with stale := false } else r))
  | l => l

theorem liveAt_clearStale (s : State) (j : Nat) : liveAt (clearStale s) j = told (liveAt s j) :=
  tget_map (d := none) (f := told) rfl s.orders j

theorem orderButStale_clearStale (s : State) (j : Nat) : orderButStale (clearStale s) j = orderButStale s j := by
  rw [orderButStale, orderButStale, orderAt, orderAt, liveAt_clearStale]
  rcases liveAt s j with _ | r | d
  · rfl
  · by_cases hr : r.state = .pending <;> simp [told, hr]
  · rfl

theorem Tells.availability (h : Tells s t) : Tells s (availability t) :=
  ⟨h.win, h.evaluated, fun j => (orderButStale_clearStale _ j).trans (h.orders j)⟩

theorem Tells.putVeh (h : Tells s t) (v : Nat) (r : Vehicle) : Tells s (putVeh v r t) := by
  unfold Machine.putVeh
  dsimp only
  split
  · refine Tells.availability ?_
    split <;> exact h.of_eq rfl rfl rfl
  · split <;> exact h.of_eq rfl rfl rfl

theorem Tells.putShelf (h : Tells s t) (st : Nat) (x : Shelf) : Tells s (putShelf st x t) := by
  unfold Machine.putShelf
  dsimp only
  split
  · exact Tells.availability (h.of_eq rfl rfl rfl)
  · exact h.of_eq rfl rfl rfl

theorem Tells.dropHoist (h : Tells s t) (v : Nat) : Tells s (dropHoist v t) := by
  rw [Machine.dropHoist, voidHoist_eq]
  exact h.of_eq rfl rfl rfl

theorem Tells.endCycle (h : Tells s t) (v : Nat) : Tells s (endCycle v t) := by
  unfold Machine.endCycle
  split
  · exact h
  · exact (h.putVeh _ _).dropHoist v

theorem Tells.freeShelves (h : Tells s t) (k : Nat) : Tells s (freeShelves k t) := by
  unfold Machine.freeShelves
  generalize (t.buf.shelves.filter _).map _ = l
  induction l generalizing t with
  | nil => exact h
  | cons st l ih => exact ih (h.putShelf _ _)

/-! ### The shelves of an order -/

/-- A shelf that its order gives up. -/
def freed (x : Shelf) : Shelf := { x with logical := .free, reserving := none }

@[simp] theorem freeShelves_flt (k : Nat) (s : State) : (freeShelves k s).flt = s.flt := by
  unfold freeShelves
  generalize (s.buf.shelves.filter _).map _ = l
  induction l generalizing s with
  | nil => rfl
  | cons st l ih => rw [List.foldl_cons, ih, putShelf_flt]

/-- The shelves of a list given up one after the other. -/
theorem shelfAt_freeing (hs : Sound s) (l : List Nat) (st : Nat) :
    shelfAt (l.foldl (fun t x => putShelf x (freed (shelfAt t x)) t) s) st =
      if st ∈ l then freed (shelfAt s st) else shelfAt s st := by
  induction l generalizing s with
  | nil => rfl
  | cons x l ih =>
    rw [List.foldl_cons, ih (putShelf_sound _ _ hs)]
    by_cases hx : st = x
    · subst hx
      rw [hs.shelfAt_putShelf]
      simp [freed]
    · simp [hx]

theorem mem_reserved (hs : Sound s) (k st : Nat) :
    st ∈ (s.buf.shelves.filter (fun p => decide (p.2.reserving = some k))).map (fun p => p.1) ↔
      (shelfAt s st).reserving = some k := by
  simp only [List.mem_map, List.mem_filter, decide_eq_true_eq]
  refine ⟨?_, fun h => ?_⟩
  · rintro ⟨⟨i, x⟩, ⟨hmem, hx⟩, rfl⟩
    rwa [shelfAt, tget_of_mem hs.shelves hmem]
  · have hne : shelfAt s st ≠ {} := fun e => by rw [e] at h; cases h
    exact ⟨_, ⟨mem_of_tget_ne hne, h⟩, rfl⟩

/-- Every shelf reserved for an order is released, and no other changes (03 R63, 09 R177). -/
theorem shelfAt_freeShelves (hs : Sound s) (k st : Nat) : shelfAt (freeShelves k s) st =
    if (shelfAt s st).reserving = some k then freed (shelfAt s st) else shelfAt s st := by
  refine (shelfAt_freeing hs _ st).trans ?_
  simp only [mem_reserved hs]

/-! ### The vehicle of an order -/

@[simp] theorem dropHoist_flt (v : Nat) (s : State) : (dropHoist v s).flt = s.flt := by
  rw [dropHoist, voidHoist_eq]; rfl
@[simp] theorem dropHoist_buf (v : Nat) (s : State) : (dropHoist v s).buf = s.buf := by
  rw [dropHoist, voidHoist_eq]; rfl
@[simp] theorem dropHoist_veh (v : Nat) (s : State) (w : Nat) : veh (dropHoist v s) w = veh s w := by
  rw [veh, dropHoist_flt, veh]

theorem veh_modVeh_other {v w : Nat} (f : Vehicle → Vehicle) (s : State) (h : w ≠ v) : veh (modVeh v f s) w = veh s w :=
  veh_putVeh_other s _ h
theorem Sound.veh_modVeh (hs : Sound s) (v : Nat) (f : Vehicle → Vehicle) : veh (modVeh v f s) v = f (veh s v) :=
  hs.veh_putVeh v _

theorem Sound.veh_endCycle (hs : Sound s) (v : Nat) : veh (endCycle v s) v = { veh s v with hoist := none } := by
  unfold endCycle
  split
  · next h => rw [← h]
  · rw [dropHoist_veh, hs.veh_modVeh]

theorem veh_endCycle_other {v w : Nat} (s : State) (h : w ≠ v) : veh (endCycle v s) w = veh s w := by
  unfold endCycle
  split
  · rfl
  · rw [dropHoist_veh, veh_modVeh_other _ _ h]

@[simp] theorem endCycle_buf (v : Nat) (s : State) : (endCycle v s).buf = s.buf := by
  unfold endCycle
  split <;> simp [modVeh]

/-- The vehicle gives up an order it holds as current, and the one it holds as chained. -/
def dropCurrent (k v : Nat) (s : State) : State :=
  if (veh s v).current = some k then endCycle v (modVeh v (fun r => { r with current := none }) s) else s
def dropChained (k v : Nat) (s : State) : State :=
  if (veh s v).chained = some k then modVeh v (fun r => { r with chained := none }) s else s

theorem unlinkOrder_some (k v : Nat) (s : State) : unlinkOrder k (some v) s = dropChained k v (dropCurrent k v s) := rfl

theorem dropCurrent_sound (k v : Nat) (hs : Sound s) : Sound (dropCurrent k v s) := by
  unfold dropCurrent
  split
  · exact endCycle_sound _ (modVeh_sound _ _ hs)
  · exact hs

theorem Tells.unlinkOrder (h : Tells s t) (k : Nat) (v : Option Nat) : Tells s (unlinkOrder k v t) := by
  have hcurrent (w : Nat) : Tells s (dropCurrent k w t) := by
    unfold dropCurrent
    split
    · exact (h.putVeh _ _).endCycle w
    · exact h
  cases v with
  | none => exact h
  | some v =>
    rw [unlinkOrder_some]
    unfold dropChained
    split
    · exact (hcurrent v).putVeh _ _
    · exact hcurrent v

@[simp] theorem unlinkOrder_buf (k : Nat) (v : Option Nat) (s : State) : (unlinkOrder k v s).buf = s.buf := by
  cases v with
  | none => rfl
  | some v =>
    have hchained (t : State) : (dropChained k v t).buf = t.buf := by unfold dropChained; split <;> simp [modVeh]
    rw [unlinkOrder_some, hchained, dropCurrent]
    split <;> simp [modVeh]

theorem Sound.veh_dropCurrent (hs : Sound s) (k v : Nat) : veh (dropCurrent k v s) v =
    if (veh s v).current = some k then { veh s v with current := none, hoist := none } else veh s v := by
  unfold dropCurrent
  split
  · rw [(modVeh_sound v _ hs).veh_endCycle, hs.veh_modVeh]
  · rfl

theorem Sound.veh_dropChained (hs : Sound s) (k v : Nat) : veh (dropChained k v s) v =
    if (veh s v).chained = some k then { veh s v with chained := none } else veh s v := by
  unfold dropChained
  split
  · exact hs.veh_modVeh ..
  · rfl

/-- The vehicle of an order holds it no longer: its hoist cycle ends with its current order (03 R63, 05 R107). -/
theorem Sound.veh_unlinkOrder (hs : Sound s) (k v : Nat) : veh (unlinkOrder k (some v) s) v = { veh s v with
    current := if (veh s v).current = some k then none else (veh s v).current
    hoist := if (veh s v).current = some k then none else (veh s v).hoist
    chained := if (veh s v).chained = some k then none else (veh s v).chained } := by
  rw [unlinkOrder_some, (dropCurrent_sound k v hs).veh_dropChained, hs.veh_dropCurrent]
  by_cases hcurrent : (veh s v).current = some k <;> by_cases hchained : (veh s v).chained = some k <;>
    simp [hcurrent, hchained]

theorem veh_unlinkOrder_other {k w : Nat} {v : Option Nat} (s : State) (h : v ≠ some w) :
    veh (unlinkOrder k v s) w = veh s w := by
  cases v with
  | none => rfl
  | some v =>
    have hw : w ≠ v := fun e => h (e ▸ rfl)
    have hchained (t : State) : veh (dropChained k v t) w = veh t w := by
      unfold dropChained
      split
      · exact veh_modVeh_other _ _ hw
      · rfl
    rw [unlinkOrder_some, hchained, dropCurrent]
    split
    · rw [veh_endCycle_other _ hw, veh_modVeh_other _ _ hw]
    · rfl

/-! ### The end of a MOVE -/

/-- An evaluation that ends changes DSP, and moves a ROUTE_PATCH on that waited for it (04, section 4.4; 02 R40). -/
theorem evaluationEnds_eq (s : State) : ∃ m, evaluationEnds s = { s with
    map := m
    dsp := { s.dsp with evaluating := false, order := none, snapshot := [], position := none, best := none, restarts := 0,
                        changeSeen := false } } := by
  unfold evaluationEnds
  dsimp only
  split
  · exact ⟨_, rfl⟩
  · exact ⟨s.map, rfl⟩

/-- A MOVE that ends gives up its shelves and its vehicle, and its slot is owed the result `f`; its record is still there. -/
def relieved (k : Nat) (v : Option Nat) (f : Final) (s : State) : State := unlinkOrder k v (oweFinal k f (freeShelves k s))

theorem relieved_tells (k : Nat) (v : Option Nat) (f : Final) (s : State) : Tells (oweFinal k f s) (relieved k v f s) := by
  have hfreed : Tells s (freeShelves k s) := (Tells.refl s).freeShelves k
  have howed : Tells (oweFinal k f s) (oweFinal k f (freeShelves k s)) :=
    ⟨by simp only [oweFinal, putSlotDue_win, hfreed.win], hfreed.evaluated, hfreed.orders⟩
  exact howed.unlinkOrder k v

theorem relieved_sound (k : Nat) (v : Option Nat) (f : Final) (hs : Sound s) : Sound (relieved k v f s) :=
  unlinkOrder_sound _ _ (oweFinal_sound _ _ (freeShelves_sound _ hs))

theorem veh_freed (k : Nat) (f : Final) (s : State) (v : Nat) : veh (oweFinal k f (freeShelves k s)) v = veh s v :=
  veh_congr (freeShelves_flt k s) v

theorem relieved_buf (k : Nat) (v : Option Nat) (f : Final) (s : State) : (relieved k v f s).buf = (freeShelves k s).buf :=
  unlinkOrder_buf ..

/-- A MOVE reaches FINISHED: relieved, its record goes, and an evaluation of it ends (03 R63). -/
theorem finishOrder_eq {k : Nat} {o : OrderRec} (h : orderAt s k = some o) (code : ResultCode) (reason : Option Reason)
    (place : Place) : ∃ m d,
      finishOrder k code reason place s =
        { putLive k none (relieved k o.vehicle (moveFinal { o with ended := some s.clock } code reason 0 place) s) with
          map := m, dsp := d } ∧
      (s.dsp.order = some k → d.evaluating = false ∧ d.order = none ∧ d.best = none ∧ d.snapshot = []) := by
  generalize hf : moveFinal { o with ended := some s.clock } code reason 0 place = f
  have hevaluated : (putLive k none (relieved k o.vehicle f s)).dsp.order = s.dsp.order := (relieved_tells ..).evaluated
  have hfinish : finishOrder k code reason place s =
      if s.dsp.order = some k then evaluationEnds (putLive k none (relieved k o.vehicle f s))
      else putLive k none (relieved k o.vehicle f s) := by
    rw [← hevaluated, ← hf, finishOrder, h]; rfl
  rw [hfinish]
  by_cases hk : s.dsp.order = some k
  · obtain ⟨m, hends⟩ := evaluationEnds_eq (putLive k none (relieved k o.vehicle f s))
    rw [if_pos hk]
    exact ⟨m, _, hends, fun _ => ⟨rfl, rfl, rfl, rfl⟩⟩
  · rw [if_neg hk]
    exact ⟨_, _, rfl, fun e => absurd e hk⟩

/-- Settles O38: each part of the state after the end, read from the relieved state and the record's removal. -/
theorem aFinishedMoveLeavesNothingBehind : Obligations.AFinishedMoveLeavesNothingBehind := by
  unfold Obligations.AFinishedMoveLeavesNothingBehind
  intro k o code reason place s hs ho t fresh
  obtain ⟨m, d, ht, hd⟩ := finishOrder_eq ho code reason place
  change t = _ at ht
  clear_value t
  subst ht
  generalize moveFinal { o with ended := some s.clock } code reason 0 place = f
  have htells := relieved_tells k o.vehicle f s
  have hfreed : Sound (oweFinal k f (freeShelves k s)) := oweFinal_sound _ _ (freeShelves_sound _ hs)
  refine ⟨(relieved_sound k o.vehicle f hs).liveAt_putLive k none, ?owed, fun j hj => ⟨?other, ?order⟩, fun st => ?shelf, hd,
    fun hv w => ?novehicle, fun v hv _ => ⟨fun w hw => ?othervehicle, ?vehicle⟩⟩
  case owed => exact (slotDueAt_congr htells.win k).trans (slotDueAt_putSlotDue _ k (by simp))
  case other => exact (slotDueAt_congr htells.win j).trans (slotDueAt_putSlotDue_other _ _ hj)
  case order =>
    have hrest : orderAt (putLive k none (relieved k o.vehicle f s)) j = orderAt (relieved k o.vehicle f s) j :=
      orderAt_congr (liveAt_putLive_other _ none hj)
    exact (congrArg (Option.map fresh) hrest).trans (htells.orders j)
  case shelf => exact (shelfAt_congr (relieved_buf k o.vehicle f s) st).trans (shelfAt_freeShelves hs k st)
  case novehicle => exact (veh_unlinkOrder_other _ (by simp [hv])).trans (veh_freed k f s w)
  case othervehicle => exact (veh_unlinkOrder_other _ (by simp [hv, Ne.symm hw])).trans (veh_freed k f s w)
  case vehicle =>
    rw [hv, ← veh_freed k f s v]
    exact hfreed.veh_unlinkOrder k v

end Sys2Proof.Machine
end

section
/-! Cancel checks: the completion of a slot read that names a live order (03 R65 to R67, 01 R12; 10 R191). -/

namespace Sys2Proof.Machine

variable {s : State} {rd : SlotRead} {bs : List Byte}

/-- A notice that is consumed changes Intake only. -/
theorem consumeNotice_eq (hot : Bool) (s : State) : ∃ i, consumeNotice hot s = { s with ink := i } := by
  simp only [consumeNotice, sweepDue, putLane]
  split <;> exact ⟨_, rfl⟩
theorem consume_eq (o : Origin) (s : State) : ∃ i, consume o s = { s with ink := i } := by
  cases o with
  | hot => exact consumeNotice_eq true s
  | normal => exact consumeNotice_eq false s
  | sweep => exact ⟨_, rfl⟩

/-- The part once a slot read has completed and its notice is consumed. -/
def afterRead (rd : SlotRead) (s : State) : State := consume rd.origin { s with ink := { s.ink with read := none } }

theorem afterRead_eq (rd : SlotRead) (s : State) : ∃ i, afterRead rd s = { s with ink := i } := consume_eq ..

@[simp] theorem afterRead_agenda : (afterRead rd s).agenda = s.agenda := consume_agenda ..
@[simp] theorem afterRead_map : (afterRead rd s).map = s.map := by
  obtain ⟨i, h⟩ := afterRead_eq rd s; rw [h]
@[simp] theorem liveAt_afterRead (k : Nat) : liveAt (afterRead rd s) k = liveAt s k := by
  obtain ⟨i, h⟩ := afterRead_eq rd s; rw [h]; rfl

/-- A read of a slot POSTED or TAKEN that holds a live order is a cancel check (10 R191). -/
theorem readDone_live (hhold : s.win.hold = false) (hread : s.ink.read = some rd)
    (hstate : (parseSlot bs).state = 1 ∨ (parseSlot bs).state = 2) (hlive : liveAt s rd.slot ≠ none) :
    readDone (.data bs) s =
      if (parseSlot bs).cancel ≠ 0 then cancelLive rd.slot (afterRead rd s) else afterRead rd s := by
  have hsome : (liveAt { s with ink := { s.ink with read := none } } rd.slot).isSome = true := Option.isSome_iff_ne_none.2 hlive
  simp [readDone, hread, actOn, hsome, hhold, hstate, afterRead]

/-- What a set cancel byte does to a live MOVE (03 R65 to R67). -/
theorem cancelLive_move {k : Nat} {o : OrderRec} (h : liveAt s k = some (.move o)) :
    (o.state = .picking → cancelLive k s = putOrder k { o with cancelDeferred := true } s) ∧
    (o.state = .carrying ∨ o.state = .placing → cancelLive k s = putOrder k { o with cancelTooLate := true } s) ∧
    (o.state = .pending ∨ o.state = .chained → cancelLive k s = finishOrder k .cancelled none .source s) ∧
    (o.state = .assigned → ∀ v, o.vehicle = some v → cancelLive k s = toIdle v (finishOrder k .cancelled none .source s)) := by
  unfold cancelLive
  rw [h]
  refine ⟨fun hs => ?_, fun hs => ?_, fun hs => ?_, fun hs v hv => ?_⟩
  · simp only [hs]
  · rcases hs with hs | hs <;> simp only [hs]
  · rcases hs with hs | hs <;> simp only [hs]
  · simp only [hs, hv]

theorem cancelLive_directive {k : Nat} {d : DirRec} (h : liveAt s k = some (.directive d)) : cancelLive k s = cancelMap k s := by
  simp only [cancelLive, h]

/-- A map directive that waits leaves the queue (01 R12). -/
theorem cancelMap_waiting {k : Nat} {d : MapDir} {q : List MapDir} (hq : s.map.queue = d :: q) (hhead : d.slot ≠ k)
    (hwaits : ∃ e ∈ q, e.slot = k) :
    cancelMap k s = endDirective k .cancelled none 0 0
      { s with map := { s.map with queue := d :: q.filter (fun e => !decide (e.slot = k)) } } := by
  simp only [cancelMap, hq]
  exact if_pos ⟨hhead, by simpa using hwaits⟩

/-- The head runs on, and so does a directive of another kind. -/
theorem cancelMap_runs_on {k : Nat} (h : (∀ e ∈ s.map.queue, e.slot ≠ k) ∨ ∃ d q, s.map.queue = d :: q ∧ d.slot = k) :
    cancelMap k s = s := by
  unfold cancelMap
  split
  · rfl
  · next d q hq =>
    refine if_neg fun ⟨hhead, hwaits⟩ => ?_
    rcases h with h | ⟨d', q', hq', hk⟩
    · simp only [List.any_eq_true, decide_eq_true_eq] at hwaits
      obtain ⟨e, he, hk⟩ := hwaits
      exact h e (by simp [hq, he]) hk
    · rw [hq] at hq'
      cases hq'
      exact hhead hk

/-- Settles O21: the read is a cancel check, and what it does goes by the live order. -/
theorem aCancelCheckActsByTheOrderState : Obligations.ACancelCheckActsByTheOrderState := by
  unfold Obligations.ACancelCheckActsByTheOrderState
  intro rd bs s hquiet hhold hread hstate s1 put
  have hagenda : (afterRead rd s).agenda = [] := afterRead_agenda.trans hquiet
  have hexec : exec (.slotReadDone (.data bs)) s = .next (settle s (readDone (.data bs) s)) := rfl
  have hfinish {t : State} (hr : readDone (.data bs) s = t) (ht : t.agenda = []) :
      exec (.slotReadDone (.data bs)) s = .next (finish s t) := by rw [hexec, hr, settle_quiet ht]
  have hcheck (hcancel : (parseSlot bs).cancel ≠ 0) {l : Live} (hl : liveAt s rd.slot = some l) :
      readDone (.data bs) s = cancelLive rd.slot (afterRead rd s) := by
    rw [readDone_live hhold hread hstate (by simp [hl]), if_pos hcancel]
  refine ⟨fun hcancel hlive => ?clear, fun o hcancel ho => ?move, fun d hcancel hd => ?directive⟩
  case clear =>
    refine hfinish ?_ hagenda
    rw [readDone_live hhold hread hstate hlive, if_neg (Classical.not_not.2 hcancel)]
    rfl
  case move =>
    rw [orderAt_eq_some] at ho
    have hlive : liveAt (afterRead rd s) rd.slot = some (.move o) := (liveAt_afterRead _).trans ho
    obtain ⟨hpicking, hcarrying, hpending, hassigned⟩ := cancelLive_move hlive
    refine ⟨fun hs => ?_, fun hs => ?_, fun hs => ?_, fun hs v hv => ?_⟩
    · exact hfinish ((hcheck hcancel ho).trans (hpicking hs)) hagenda
    · exact hfinish ((hcheck hcancel ho).trans (hcarrying hs)) hagenda
    · exact hfinish ((hcheck hcancel ho).trans (hpending hs)) ((finishOrder_agenda ..).trans hagenda)
    · have hidle : Quiet (modVeh v (fun r => { r with state := .idle, target := none, circulating := false })
          (finishOrder rd.slot .cancelled none .source (afterRead rd s))) :=
        (modVeh_agenda ..).trans ((finishOrder_agenda ..).trans hagenda)
      rw [hexec, hcheck hcancel ho, hassigned hs v hv, toIdle, push_quiet hidle]
      rfl
  case directive =>
    have hlive : liveAt (afterRead rd s) rd.slot = some (.directive d) := (liveAt_afterRead _).trans hd
    have hmap := (hcheck hcancel hd).trans (cancelLive_directive hlive)
    refine ⟨fun h q hq hhead hwaits => ?_, fun hrun => ?_⟩
    · have hq' : (afterRead rd s).map.queue = h :: q := by rw [afterRead_map, hq]
      rw [cancelMap_waiting hq' hhead hwaits, afterRead_map] at hmap
      exact hfinish hmap ((endDirective_agenda ..).trans hagenda)
    · exact hfinish (hmap.trans (cancelMap_runs_on (by rwa [afterRead_map]))) hagenda

end Sys2Proof.Machine
end

section
/-! MOVE intake: its refusals in their order (03 R48 to R50), and what an accepted MOVE becomes (03 R51, R52). -/

namespace Sys2Proof.Machine

variable {s : State} {slot : Nat} {tag : BitVec 32} {m : MoveOps} {a : Source} {b : Dest}

/-! ### The operands -/

theorem badMove_iff : badMove s m = true ↔ (m.srcKind ≠ 1 ∧ m.srcKind ≠ 3) ∨ (m.dstKind ≠ 1 ∧ m.dstKind ≠ 2) ∨ 32 < m.idLength ∨
    (m.srcKind = 3 ∧ 255 < m.srcValue) ∨ (m.dstKind = 2 ∧ (63 < m.dstValue ∨ bayAt s m.dstValue = none)) := by
  simp [badMove, bayDefined, or_assoc]

theorem moveSource_eq_some (h : a = .vehicle m.srcValue ∧ m.srcKind = 3 ∨
    ∃ st, a = .station st ∧ m.srcKind = 1 ∧ decodeCode s m.srcValue = some st) : moveSource s m = some a := by
  rcases h with ⟨rfl, hkind⟩ | ⟨st, rfl, hkind, hcode⟩
  · exact if_neg (by omega)
  · rw [moveSource, if_pos hkind, hcode]; rfl
theorem moveDest_eq_some (h : b = .buffer m.dstValue ∧ m.dstKind = 2 ∨
    ∃ st, b = .station st ∧ m.dstKind = 1 ∧ decodeCode s m.dstValue = some st) : moveDest s m = some b := by
  rcases h with ⟨rfl, hkind⟩ | ⟨st, rfl, hkind, hcode⟩
  · exact if_neg (by omega)
  · rw [moveDest, if_pos hkind, hcode]; rfl
theorem moveSource_eq_none : moveSource s m = none ↔ m.srcKind = 1 ∧ decodeCode s m.srcValue = none := by
  by_cases hkind : m.srcKind = 1 <;> simp [moveSource, hkind]
theorem moveDest_eq_none : moveDest s m = none ↔ m.dstKind = 1 ∧ decodeCode s m.dstValue = none := by
  by_cases hkind : m.dstKind = 1 <;> simp [moveDest, hkind]

/-! ### What an intake of a MOVE is -/

/-- A MOVE's row, taken as its slot, is the intake of the MOVE. -/
theorem takeRow_move (htake : takeable s slot = true) :
    takeRow slot tag (.move m) s = takeMove (taking s slot tag) m (countTaking s) := takeRow_taken htake

theorem exec_move_settle (htake : takeable s slot = true) {t : State}
    (h : takeMove (taking s slot tag) m (countTaking s) = t) : exec (.move slot tag m) s = .next (settle s t) := by
  rw [← h, ← takeRow_move htake]; rfl

theorem exec_move_finish (htake : takeable s slot = true) {t : State}
    (h : takeMove (taking s slot tag) m (countTaking s) = t) (hquiet : t.agenda = []) :
    exec (.move slot tag m) s = .next (finish s t) := by
  rw [exec_move_settle htake h, settle_quiet hquiet]

theorem exec_move_refused (hquiet : Quiet s) (htake : takeable s slot = true) {reason : Reason} {detail : Nat}
    (h : takeMove (taking s slot tag) m (countTaking s) =
      refuseMove (taking s slot tag) m b reason detail (countTaking s)) :
    exec (.move slot tag m) s = .next (finish s (refusesMove s slot tag m b reason detail)) :=
  exec_move_finish htake h hquiet

section
variable {t : Taking}

/-! The intake of a MOVE by its operands: conditions 1 to 3, then 4 to 9, then its acceptance. -/

theorem takeMove_not_committed (h : committed s = false) : takeMove t m s = refuseMove t m (.buffer 0) .mapNotCommitted 0 s := by
  simp [takeMove, h]

variable (hcom : committed s = true)
include hcom

theorem takeMove_bad (h : badMove s m = true) : takeMove t m s = refuseMove t m (.buffer 0) .badOperand 0 s := by
  simp [takeMove, hcom, h]

variable (hgood : badMove s m = false)
include hgood

theorem takeMove_unknown_source (h : moveSource s m = none) :
    takeMove t m s = refuseMove t m (.buffer 0) .unknownLocation 1 s := by
  simp [takeMove, hcom, hgood, h]

theorem takeMove_unknown_dest (ha : moveSource s m = some a) (h : moveDest s m = none) :
    takeMove t m s = refuseMove t m (.buffer 0) .unknownLocation 2 s := by
  simp [takeMove, hcom, hgood, ha, h]

variable (hb : moveDest s m = some b)
include hb

theorem takeMove_place (ha : moveSource s m = some a) {reason : Reason} {detail : Nat} (h : placeRefusal s a b = some (reason, detail)) :
    takeMove t m s = refuseMove t m b reason detail s := by
  simp [takeMove, hcom, hgood, ha, hb, h]

theorem takeMove_station {st : Nat} (ha : moveSource s m = some (.station st)) (h : placeRefusal s (.station st) b = none) :
    takeMove t m s = acceptStation t (newOrder t m (.station st) b) s := by
  simp [takeMove, hcom, hgood, ha, hb, h]

theorem takeMove_vehicle {v : Nat} (ha : moveSource s m = some (.vehicle v)) (h : placeRefusal s (.vehicle v) b = none) :
    takeMove t m s = acceptVehicle t v (newOrder t m (.vehicle v) b) s := by
  simp [takeMove, hcom, hgood, ha, hb, h]

end

/-- Settles O22: the refusal for each operand condition, then `placeRefusal` condition by condition. -/
theorem aMoveIsRefusedByTheFirstCondition : Obligations.AMoveIsRefusedByTheFirstCondition := by
  unfold Obligations.AMoveIsRefusedByTheFirstCondition
  intro slot tag m s hquiet htake answers source station
  have hanswers {b : Dest} {reason : Reason} {detail : Nat} (h : takeMove (taking s slot tag) m (countTaking s) =
      refuseMove (taking s slot tag) m b reason detail (countTaking s)) : answers b reason detail :=
    exec_move_refused hquiet htake h
  by_cases hcom : committed s = false
  · rw [if_pos hcom]
    exact hanswers (takeMove_not_committed hcom)
  rw [if_neg hcom]
  rw [Bool.not_eq_false] at hcom
  by_cases hbad : badMove s m = true
  · rw [if_pos (badMove_iff.1 hbad)]
    exact hanswers (takeMove_bad hcom hbad)
  rw [if_neg (mt badMove_iff.2 hbad)]
  rw [Bool.not_eq_true] at hbad
  by_cases hnoSource : moveSource s m = none
  · rw [if_pos (moveSource_eq_none.1 hnoSource)]
    exact hanswers (takeMove_unknown_source hcom hbad hnoSource)
  rw [if_neg (mt moveSource_eq_none.2 hnoSource)]
  by_cases hnoDest : moveDest s m = none
  · obtain ⟨a, ha⟩ := Option.ne_none_iff_exists'.1 hnoSource
    rw [if_pos (moveDest_eq_none.1 hnoDest)]
    exact hanswers (takeMove_unknown_dest hcom hbad ha hnoDest)
  rw [if_neg (mt moveDest_eq_none.2 hnoDest)]
  intro a b hsource hdest closedAt from_ to_ rackless
  have hplace {reason : Reason} {detail : Nat} (h : placeRefusal s a b = some (reason, detail)) : answers b reason detail :=
    hanswers (takeMove_place (s := countTaking s) hcom hbad (moveDest_eq_some hdest) (moveSource_eq_some hsource) h)
  have hclosedFrom : closedAt from_ = sourceClosed s a := by cases a <;> rfl
  have hclosedTo : closedAt to_ = destClosed s b := by cases b <;> rfl
  have hsame : (from_.isSome ∧ from_ = to_) ↔ sameLocation a b = true := by
    cases a <;> cases b <;> simp [from_, to_, sameLocation]
  have hrackless : rackless = noBuffer s b := by cases b <;> rfl
  rw [hclosedFrom, hclosedTo, hrackless]
  by_cases hfrom : sourceClosed s a = true
  · rw [if_pos hfrom]
    exact hplace (by simp [placeRefusal, hfrom])
  by_cases hto : destClosed s b = true
  · rw [if_neg hfrom, if_pos hto]
    exact hplace (by simp [placeRefusal, hfrom, hto])
  by_cases hloc : sameLocation a b = true
  · rw [if_neg hfrom, if_neg hto, if_pos (hsame.2 hloc)]
    exact hplace (by simp [placeRefusal, hfrom, hto, hloc])
  by_cases hrack : noBuffer s b = true
  · rw [if_neg hfrom, if_neg hto, if_neg (mt hsame.1 hloc), if_pos hrack]
    exact hplace (by simp [placeRefusal, hfrom, hto, hloc, hrack])
  rw [if_neg hfrom, if_neg hto, if_neg (mt hsame.1 hloc), if_neg hrack]
  cases hclaim : sourceClaim s a with
  | some k => exact hplace (by simp [placeRefusal, hfrom, hto, hloc, hrack, hclaim])
  | none =>
    cases hnamed : namedClaim s b with
    | some k => exact hplace (by simp [placeRefusal, hfrom, hto, hloc, hrack, hclaim, hnamed])
    | none =>
      rintro v rfl hv
      exact hplace (by simp [placeRefusal, hfrom, hto, hloc, hrack, hclaim, hnamed, notHolding, hv])

end Sys2Proof.Machine
end

section
/-! The acceptance of a MOVE from a station and from a HOLDING vehicle (03 R51, R52). -/

namespace Sys2Proof.Machine

variable {s : State} {slot : Nat} {tag : BitVec 32} {m : MoveOps} {b : Dest}

/-! ### A vehicle sent on -/

/-- Of two writes of a vehicle record the first does not matter where the second is no news to DSP. -/
theorem putVeh_putVeh (v : Nat) {r r' : Vehicle} (s : State) (hr : r ≠ {}) (hstate : r'.state = r.state)
    (huncertain : r'.uncertain = r.uncertain) (hquarantined : r'.quarantined = r.quarantined)
    (hchained : r'.chained = r.chained) : putVeh v r' (putVeh v r s) = putVeh v r' s := by
  have hread : veh (putVeh v r s) v = r := veh_putVeh s v hr
  have hnoAvail : availChange r r' = false := by simp [availChange, hstate, huncertain, hquarantined, hchained]
  have hnoLeave : leavesWindow r r' = false := by simp [leavesWindow, hstate, hchained]
  have havail : availChange (veh s v) r' = availChange (veh s v) r := by
    simp only [availChange, hstate, huncertain, hquarantined, hchained]
  have hleave : leavesWindow (veh s v) r' = leavesWindow (veh s v) r := by simp only [leavesWindow, hstate, hchained]
  have hplain (t : State) (ht : veh t v = r) :
      putVeh v r' t = { t with flt := { t.flt with vehicles := tset {} t.flt.vehicles v r' } } := by
    simp [putVeh, ht, hnoAvail, hnoLeave]
  rw [hplain _ hread, putVeh_flt]
  simp only [tset_tset _ _ _ _ hr]
  unfold putVeh
  dsimp only
  rw [havail, hleave]
  (repeat' split) <;> rfl

/-- The record of a vehicle that goes on with a carrier for an order (03 R52). -/
def goingOn (slot : Nat) (r : Vehicle) : Vehicle := { r with state := .toDest, current := some slot }

/-- The vehicle of an accepted MOVE goes TO_DEST towards a node: arrival handling is asked for where it stands there already,
then the revision of its wait and an extension attempt. -/
def sentTo (v slot g : Nat) (s : State) : State :=
  { putVeh v { goingOn slot (veh s v) with target := some g } s with
    agenda := (if standingAt (veh s v) = some g then [.arrival v] else []) ++ [.revise v, .attempt v] }

theorem setTarget_goingOn (v slot g : Nat) (hquiet : Quiet s) : setTarget v g (modVeh v (goingOn slot) s) = sentTo v slot g s := by
  have hne : goingOn slot (veh s v) ≠ {} := fun e => by cases congrArg Vehicle.state e
  have hread : veh (modVeh v (goingOn slot) s) v = goingOn slot (veh s v) := veh_putVeh s v hne
  have htasks : targetTasks v g (modVeh v (goingOn slot) s) =
      (if standingAt (veh s v) = some g then [.arrival v] else []) ++ [.revise v, .attempt v] := by
    rw [targetTasks, hread]; rfl
  have hwrite : modVeh v (fun r => { r with target := some g }) (modVeh v (goingOn slot) s) =
      putVeh v { goingOn slot (veh s v) with target := some g } s := by
    rw [modVeh, hread]
    exact putVeh_putVeh v s hne rfl rfl rfl rfl
  have hquiet' : Quiet (putVeh v { goingOn slot (veh s v) with target := some g } s) := (putVeh_agenda ..).trans hquiet
  rw [setTarget, htasks, hwrite, push_quiet hquiet']
  rfl

/-! ### Acceptance -/

/-- A MOVE's record at its taking from a vehicle, which holds the carrier (03 R52). -/
def carriedOrder (t : Taking) (v : Nat) (r : OrderRec) : OrderRec :=
  { r with state := .carrying, vehicle := some v, assigned := some t.time, loaded := some t.time }

theorem stationNode_congr {t : State} (h : t.map = s.map) (st : Nat) : stationNode t st = stationNode s st := by
  rw [stationNode, stationNode, stationAt, stationAt, h]

@[simp] theorem stationNode_modVeh (v : Nat) (f : Vehicle → Vehicle) (s : State) (st : Nat) :
    stationNode (modVeh v f s) st = stationNode s st := stationNode_congr (putVeh_map ..) st
@[simp] theorem stationNode_oweTaken_putOrder (k j : Nat) (r : OrderRec) (s : State) (st : Nat) :
    stationNode (oweTaken k (putOrder j r s)) st = stationNode s st := rfl

/-- A reservation writes the shelf and the order's record; the map and the vehicles stay (09 R179). -/
theorem reserveDrop_map_flt (k st : Nat) (s : State) :
    (reserveDrop k st s).map = s.map ∧ (reserveDrop k st s).flt = s.flt := by
  unfold reserveDrop modOrder
  split <;> simp

@[simp] theorem stationNode_reserveDrop (k x : Nat) (s : State) (st : Nat) :
    stationNode (reserveDrop k x s) st = stationNode s st := stationNode_congr (reserveDrop_map_flt k x s).1 st

section
variable {t : Taking} {v st g : Nat} {r : OrderRec} (hquiet : Quiet s) (hnode : stationNode s st = some g)
include hquiet hnode

/-- A MOVE from a vehicle to a station is live, and the vehicle goes there. -/
theorem acceptVehicle_station (hdest : r.dest = .station st) :
    acceptVehicle t v r s = sentTo v t.slot g (acceptStation t (carriedOrder t v r) s) := by
  have hquiet' : Quiet (acceptStation t (carriedOrder t v r) s) := hquiet
  rw [← setTarget_goingOn v t.slot g hquiet']
  cases r
  cases hdest
  simp only [acceptVehicle, acceptStation, carriedOrder, stationNode_modVeh, stationNode_oweTaken_putOrder, hnode]
  rfl

/-- A MOVE from a vehicle to a bay with a choosable shelf is live, and the vehicle goes to the shelf. -/
theorem acceptVehicle_shelf {i : Nat} (hdest : r.dest = .buffer i)
    (hchoice : dropChoice (acceptStation t (carriedOrder t v r) s) i = some st) :
    acceptVehicle t v r s = sentTo v t.slot g (reserveDrop t.slot st (acceptStation t (carriedOrder t v r) s)) := by
  have hquiet' : Quiet (reserveDrop t.slot st (acceptStation t (carriedOrder t v r) s)) := (reserveDrop_agenda ..).trans hquiet
  rw [← setTarget_goingOn v t.slot g hquiet']
  cases r
  cases hdest
  simp only [acceptStation, carriedOrder] at hchoice
  simp only [acceptVehicle, acceptStation, carriedOrder, stationNode_modVeh, stationNode_reserveDrop,
    stationNode_oweTaken_putOrder, hnode, hchoice]
  rfl

end

/-- A MOVE from a vehicle to a bay without one ends as it is taken; the vehicle stays as it is (03 R52). -/
theorem acceptVehicle_noShelf {t : Taking} {v i : Nat} {r : OrderRec} (hdest : r.dest = .buffer i)
    (hchoice : dropChoice (acceptStation t (carriedOrder t v r) s) i = none) :
    acceptVehicle t v r s = oweFinal t.slot
      (moveFinal { carriedOrder t v r with ended := some t.time } .failed (some .destOccupied) 0 .vehicle) s := by
  cases r
  cases hdest
  simp only [acceptStation, carriedOrder] at hchoice
  simp only [acceptVehicle, carriedOrder, hchoice]

/-- Settles O23: the intake that no condition refuses, from a station, and from a vehicle by its destination. -/
theorem anAcceptedMoveIsLive : Obligations.AnAcceptedMoveIsLive := by
  unfold Obligations.AnAcceptedMoveIsLive
  refine ⟨fun slot tag m a b s hquiet htake hcom hgood hkind hcode hdest hplace => ?station,
    fun slot tag m b s hquiet htake hcom hgood hkind hdest hplace => ?vehicle⟩
  case station =>
    have hsource : moveSource s m = some (.station a) := moveSource_eq_some (.inr ⟨a, rfl, hkind, hcode⟩)
    exact exec_move_finish htake (takeMove_station (s := countTaking s) hcom hgood hdest hsource hplace) hquiet
  case vehicle =>
    intro v o taken live goes
    have hsource : moveSource s m = some (.vehicle v) := moveSource_eq_some (.inl ⟨rfl, hkind⟩)
    have htaken := takeMove_vehicle (s := countTaking s) (t := taking s slot tag) hcom hgood hdest hsource hplace
    have hlive : acceptStation (taking s slot tag)
        (carriedOrder (taking s slot tag) v (newOrder (taking s slot tag) m (.vehicle v) b)) (countTaking s) = live := rfl
    have hgoes (g : Nat) {t : State} (ht : veh t v = veh s v) : sentTo v slot g t = goes g t := by
      rw [sentTo, ht]; rfl
    have hslot : (taking s slot tag).slot = slot := rfl
    have hquiet' : Quiet (countTaking s) := hquiet
    refine ⟨fun st g hb hnode => ?_, fun i hb => ⟨fun st g hchoice hnode => ?_, fun hchoice => ?_⟩⟩
    · have hnode' : stationNode (countTaking s) st = some g := hnode
      rw [acceptVehicle_station hquiet' hnode' hb, hlive, hslot, hgoes g (t := live) rfl] at htaken
      exact exec_move_settle htake htaken
    · have hnode' : stationNode (countTaking s) st = some g := hnode
      have hveh : veh (reserveDrop slot st live) v = veh s v := veh_congr (reserveDrop_map_flt slot st live).2 v
      rw [← hlive] at hchoice
      rw [acceptVehicle_shelf hquiet' hnode' hb hchoice, hlive, hslot, hgoes g (t := reserveDrop slot st live) hveh] at htaken
      exact exec_move_settle htake htaken
    · rw [← hlive] at hchoice
      rw [acceptVehicle_noShelf hb hchoice] at htaken
      exact exec_move_finish htake htaken hquiet

end Sys2Proof.Machine
end

section
/-! SUPPORT. The pending list (04 R70), and how an evaluation begins, ends and restarts a pass (04 R79, R84, R85). -/

namespace Sys2Proof.Machine

variable {s : State} {k : Nat} {o : OrderRec}

/-! ### Events -/

/-- An event whose effect is known. -/
theorem event_settle_of {f : State → State} {b : State} (hf : f s = b) : event f s = .next (settle s b) := by
  rw [event_settle, hf]

/-- An event whose effect is known and asks the blocks for nothing. -/
theorem event_finish_of {f : State → State} {b : State} (hf : f s = b) (hb : Quiet b) : event f s = .next (finish s b) := by
  rw [event_settle_of hf, settle_quiet hb]

/-! ### The pending list -/

theorem pendingBefore_iff {p q : Nat × OrderRec} : pendingBefore p q = true ↔
    rankOf q.2 < rankOf p.2 ∨ (rankOf q.2 = rankOf p.2 ∧ p.2.seq.toNat < q.2.seq.toNat) := by
  simp only [pendingBefore, Bool.or_eq_true, Bool.and_eq_true, decide_eq_true_eq]

/-- `p` may stand ahead of `q` in the pending list: `q` does not go before it. -/
def MayPrecede (p q : Nat × OrderRec) : Prop := ¬ pendingBefore q p = true

theorem mayPrecede_iff {p q : Nat × OrderRec} : MayPrecede p q ↔
    rankOf q.2 < rankOf p.2 ∨ (rankOf q.2 = rankOf p.2 ∧ p.2.seq.toNat ≤ q.2.seq.toNat) := by
  rw [MayPrecede, pendingBefore_iff]
  omega

theorem mayPrecede_of_before {p q : Nat × OrderRec} (h : pendingBefore p q = true) : MayPrecede p q := by
  rw [pendingBefore_iff] at h
  rw [mayPrecede_iff]
  omega

theorem MayPrecede.trans {p q r : Nat × OrderRec} (hpq : MayPrecede p q) (hqr : MayPrecede q r) : MayPrecede p r := by
  rw [mayPrecede_iff] at *
  omega

theorem mem_insertPending {x y : Nat × OrderRec} {l : List (Nat × OrderRec)} : y ∈ insertPending x l ↔ y = x ∨ y ∈ l := by
  induction l with
  | nil => simp [insertPending]
  | cons z l ih =>
    unfold insertPending
    split
    · exact List.mem_cons
    · simp only [List.mem_cons, ih, or_left_comm]

theorem insertPending_ordered (x : Nat × OrderRec) {l : List (Nat × OrderRec)} (h : l.Pairwise MayPrecede) :
    (insertPending x l).Pairwise MayPrecede := by
  induction l with
  | nil => exact List.pairwise_singleton _ _
  | cons y l ih =>
    obtain ⟨hy, hl⟩ := List.pairwise_cons.1 h
    unfold insertPending
    split
    · next hxy =>
      have hfirst : MayPrecede x y := mayPrecede_of_before hxy
      refine List.pairwise_cons.2 ⟨fun z hz => ?_, h⟩
      rcases List.mem_cons.1 hz with rfl | hz
      · exact hfirst
      · exact hfirst.trans (hy z hz)
    · next hxy =>
      refine List.pairwise_cons.2 ⟨fun z hz => ?_, ih hl⟩
      rcases mem_insertPending.1 hz with rfl | hz
      · exact hxy
      · exact hy z hz

/-- The pending list holds the live MOVEs in state PENDING. -/
theorem mem_pendingList {p : Nat × OrderRec} : p ∈ pendingList s ↔ p ∈ moves s ∧ p.2.state = .pending := by
  have hfold (l : List (Nat × OrderRec)) : p ∈ l.foldr insertPending [] ↔ p ∈ l := by
    induction l with
    | nil => exact Iff.rfl
    | cons x l ih => rw [List.foldr_cons, mem_insertPending, ih, List.mem_cons]
  rw [pendingList, hfold, List.mem_filter, decide_eq_true_eq]

/-- The pending list stands in the order of 04 R70. -/
theorem pendingList_ordered (s : State) : (pendingList s).Pairwise MayPrecede := by
  unfold pendingList
  induction (moves s).filter (fun p => decide (p.2.state = .pending)) with
  | nil => exact List.Pairwise.nil
  | cons x l ih => exact insertPending_ordered x ih

/-- The order evaluated next is pending and fresh, and no other such order goes before it (04 R79). -/
theorem firstFresh_spec {p : Nat × OrderRec} (h : firstFresh s = some p) :
    (p ∈ moves s ∧ p.2.state = .pending ∧ p.2.stale = false) ∧
      ∀ q ∈ moves s, q.2.state = .pending → q.2.stale = false → MayPrecede p q := by
  obtain ⟨hfresh, before, after, hlist, hstale⟩ := List.find?_eq_some_iff_append.1 h
  have hmem : p ∈ pendingList s := by rw [hlist]; exact List.mem_append_right _ List.mem_cons_self
  obtain ⟨hmoves, hpending⟩ := mem_pendingList.1 hmem
  refine ⟨⟨hmoves, hpending, by simpa using hfresh⟩, fun q hq hqpending hqfresh => ?_⟩
  have hordered := pendingList_ordered s
  have hqlist : q ∈ pendingList s := mem_pendingList.2 ⟨hq, hqpending⟩
  rw [hlist] at hordered hqlist
  rcases List.mem_append.1 hqlist with hqbefore | hqrest
  · exact absurd (hstale q hqbefore) (by simp [hqfresh])
  · rcases List.mem_cons.1 hqrest with rfl | hqafter
    · exact mayPrecede_iff.2 (.inr ⟨rfl, Nat.le_refl _⟩)
    · exact (List.pairwise_cons.1 (List.pairwise_append.1 hordered).2.1).1 q hqafter

/-! ### The end of an evaluation -/

/-- A ROUTE_PATCH that waits for the evaluation passes to its checks as that ends (02 R40). -/
def runAfterEvaluation : MapRun → MapRun
  | .waiting buf => .checking buf
  | r => r

theorem runAfterEvaluation_self {r : MapRun} (h : ∀ buf, r ≠ .waiting buf) : runAfterEvaluation r = r := by
  unfold runAfterEvaluation
  split
  · exact absurd rfl (h _)
  · rfl

theorem runAfterEvaluation_of_not_waiting (h : patchWaits s = false) : runAfterEvaluation s.map.run = s.map.run :=
  runAfterEvaluation_self fun buf hr => by rw [patchWaits, hr] at h; cases h

theorem evaluationEnds_run (s : State) : evaluationEnds s = { s with
    dsp := { s.dsp with
      evaluating := false, order := none, snapshot := [], position := none, best := none, restarts := 0, changeSeen := false }
    map := { s.map with run := runAfterEvaluation s.map.run } } := by
  unfold evaluationEnds
  dsimp only
  split
  · next buf hr => rw [hr]; rfl
  · next hr => rw [runAfterEvaluation_self hr]

/-- The live orders once the evaluation of `k` has found no vehicle: its flag is set unless a change was seen (04 R84, R85). -/
def ordersUnassigned (k : Nat) (o : OrderRec) (s : State) : Table (Option Live) :=
  if s.dsp.changeSeen then s.orders else tset none s.orders k (some (.move { o with stale := true }))

theorem endUnassigned_eq (ho : orderAt s k = some o) :
    endUnassigned k s = evaluationEnds { s with orders := ordersUnassigned k o s } := by
  unfold endUnassigned ordersUnassigned
  cases hseen : s.dsp.changeSeen with
  | true => rfl
  | false => simp only [Bool.false_eq_true, if_false, modOrder, ho]; rfl

/-! ### The beginning of a pass -/

theorem beginPass_unassigned (h : eligible s o = false ∨ snapshot s o = []) : beginPass k o s = endUnassigned k s := by
  unfold beginPass
  cases he : eligible s o with
  | false => rfl
  | true =>
    have hnone : snapshot s o = [] := h.resolve_left (by rw [he]; decide)
    simp [hnone]

theorem beginPass_scores {c : Nat × CandKind} {cs : List (Nat × CandKind)} (he : eligible s o = true)
    (hc : snapshot s o = c :: cs) :
    beginPass k o s = { s with dsp := { s.dsp with snapshot := c :: cs, position := some c.1, best := none } } := by
  simp [beginPass, he, hc]

end Sys2Proof.Machine
end

section
/-! EVALUATION_START and SCORE_STEP (04 R79, R80). -/

namespace Sys2Proof.Machine

variable {s : State} {k : Nat} {o : OrderRec}

/-! ### EVALUATION_START -/

/-- DSP as the evaluation of `k` starts. -/
def startedDsp (k : Nat) (d : Dsp) : Dsp :=
  { d with evaluating := true, order := some k, snapshot := [], position := none, best := none, restarts := 0,
           changeSeen := false }

theorem startEvaluation_none (h : s.dsp.evaluating = true ∨ s.win.hold = true ∨ s.flt.phase ≠ .operating ∨
    patchWaits s = true ∨ firstFresh s = none) : startEvaluation s = s := by
  have hnone : startable s = none := by
    unfold startable
    split
    · next hmay =>
      simp only [Bool.and_eq_true, Bool.not_eq_true', decide_eq_true_eq] at hmay
      obtain ⟨⟨⟨hidle, hhold⟩, hphase⟩, hpatch⟩ := hmay
      simpa [hidle, hhold, hphase, hpatch] using h
    · rfl
  rw [startEvaluation, hnone]

section
variable (hidle : s.dsp.evaluating = false) (hhold : s.win.hold = false) (hphase : s.flt.phase = .operating)
  (hpatch : patchWaits s = false) (hfresh : firstFresh s = some (k, o))
include hidle hhold hphase hpatch hfresh

theorem startEvaluation_some : startEvaluation s = beginPass k o { s with dsp := startedDsp k s.dsp } := by
  have hsome : startable s = some (k, o) := by simp [startable, hidle, hhold, hphase, hpatch, hfresh]
  rw [startEvaluation, hsome]
  rfl

/-- An order that is eligible and has candidates begins its first pass. -/
theorem startEvaluation_scores {c : Nat × CandKind} {cs : List (Nat × CandKind)} (he : eligible s o = true)
    (hc : snapshot s o = c :: cs) :
    startEvaluation s = { s with dsp := { startedDsp k s.dsp with snapshot := c :: cs, position := some c.1 } } := by
  have he' : eligible { s with dsp := startedDsp k s.dsp } o = true := he
  rw [startEvaluation_some hidle hhold hphase hpatch hfresh, beginPass_scores he' hc]
  rfl

/-- An order that is ineligible or has no candidate has its flag set, and DSP is READY again. -/
theorem startEvaluation_unassigned (h : eligible s o = false ∨ snapshot s o = []) (ho : orderAt s k = some o) :
    startEvaluation s = { s with
      dsp := { s.dsp with
        evaluating := false, order := none, snapshot := [], position := none, best := none, restarts := 0, changeSeen := false }
      orders := tset none s.orders k (some (.move { o with stale := true })) } := by
  have ho' : orderAt { s with dsp := startedDsp k s.dsp } k = some o := ho
  have h' : eligible { s with dsp := startedDsp k s.dsp } o = false ∨ snapshot { s with dsp := startedDsp k s.dsp } o = [] := h
  rw [startEvaluation_some hidle hhold hphase hpatch hfresh, beginPass_unassigned h', endUnassigned_eq ho', evaluationEnds_run]
  dsimp only
  rw [runAfterEvaluation_of_not_waiting hpatch]
  rfl

end

/-- Settles O35: the pending list is ordered by rank and sequence; an evaluation starts with its first fresh order, or not. -/
theorem anEvaluationStartsWithTheFirstFreshOrder : Obligations.AnEvaluationStartsWithTheFirstFreshOrder := by
  unfold Obligations.AnEvaluationStartsWithTheFirstFreshOrder
  refine ⟨fun s k o hfresh => ?order, ?start⟩
  case order =>
    obtain ⟨hself, hothers⟩ := firstFresh_spec hfresh
    exact ⟨hself, fun j p hp hpending hpfresh => mayPrecede_iff.1 (hothers (j, p) hp hpending hpfresh)⟩
  intro s hquiet idle
  refine ⟨fun hnone => ?none, fun k o hidle hhold hphase hpatch hfresh =>
    ⟨fun he c cs hc => ?scores, fun hun ho => ?unassigned⟩⟩
  case none => exact event_finish_of (startEvaluation_none hnone) hquiet
  case scores => exact event_finish_of (startEvaluation_scores hidle hhold hphase hpatch hfresh he hc) hquiet
  case unassigned => exact event_finish_of (startEvaluation_unassigned hidle hhold hphase hpatch hfresh hun ho) hquiet

/-! ### SCORE_STEP -/

/-- The better of a candidate found and the best so far (04 R80). -/
def betterOf : Option Best → Option Best → Option Best
  | none, b => b
  | some c, none => some c
  | some c, some b => if better c b then some c else some b

/-- The candidate that a vehicle of the snapshot is when its turn comes, if it still is one and has a score (04 R80). -/
def scoredAs (s : State) (o : OrderRec) (v : Nat) (kind : CandKind) : Option Best :=
  if candidate s o v = some kind then (score s o v kind).map (fun n => ⟨v, kind, n⟩) else none

theorem scoreOne_eq {v : Nat} {kind : CandKind} (hk : s.dsp.order = some k) (ho : orderAt s k = some o)
    (hv : s.dsp.position = some v) (hkind : s.dsp.snapshot.find? (fun p => decide (p.1 = v)) = some (v, kind)) :
    scoreOne s = { s with dsp := { s.dsp with
      best := betterOf (scoredAs s o v kind) s.dsp.best, position := nextPosition s.dsp.snapshot v } } := by
  simp only [scoreOne, hv, hk, Option.bind_some, ho, hkind, Option.map_some]
  rfl

/-- Settles O36: the vehicle at the scoring position is scored if it is still a candidate of its kind, and kept if better. -/
theorem aScoreStepKeepsTheBetterCandidate : Obligations.AScoreStepKeepsTheBetterCandidate := by
  unfold Obligations.AScoreStepKeepsTheBetterCandidate
  intro k v o kind s hquiet hk ho hv hkind best
  have hbest : betterOf (scoredAs s o v kind) s.dsp.best = best := by
    unfold scoredAs best
    split
    · cases score s o v kind with
      | none => rfl
      | some n =>
        cases s.dsp.best with
        | none => rfl
        | some b => simp only [Option.map_some, betterOf, better_iff, and_or_left]
    · rfl
  refine event_finish_of ?_ hquiet
  rw [scoreOne_eq hk ho hv hkind, hbest]
  rfl

end Sys2Proof.Machine
end

section
/-! EVALUATION_COMPLETION: an assignment with its reservations, an end without one, a pass begun anew (04 R82 to R85). -/

namespace Sys2Proof.Machine

variable {s : State} {k a g : Nat} {o o1 : OrderRec} {b : Best}

/-! ### A completed pass -/

theorem modOrder_of_orderAt (ho : orderAt s k = some o) (f : OrderRec → OrderRec) : modOrder k f s = putOrder k (f o) s := by
  rw [modOrder, ho]

/-- The pass of the evaluation in flight is to begin anew (04 R82). -/
def restarted (s : State) : State := { s with dsp := { s.dsp with restarts := s.dsp.restarts + 1 } }

theorem evaluationCompletes_early (h : s.dsp.evaluating = false ∨ s.dsp.position ≠ none) : evaluationCompletes s = s := by
  refine if_neg ?_
  rintro ⟨hevaluating, hposition⟩
  rcases h with h | h
  · rw [hevaluating] at h; cases h
  · exact h hposition

section
variable (hevaluating : s.dsp.evaluating = true) (hposition : s.dsp.position = none) (hk : s.dsp.order = some k)
  (ho : orderAt s k = some o)
include hevaluating hposition hk ho

/-! A pass whose whole snapshot has been stepped over, by the outcome of its re-check (04 R82). -/

theorem evaluationCompletes_no_best (hbest : s.dsp.best = none) : evaluationCompletes s = endUnassigned k s := by
  rw [evaluationCompletes, if_pos ⟨hevaluating, hposition⟩]
  simp only [completePass, hk, ho, hbest]

theorem evaluationCompletes_ineligible (hbest : s.dsp.best = some b) (he : eligible s o = false) :
    evaluationCompletes s = endUnassigned k s := by
  rw [evaluationCompletes, if_pos ⟨hevaluating, hposition⟩]
  simp [completePass, hk, ho, hbest, he]

theorem evaluationCompletes_assigns (hbest : s.dsp.best = some b) (he : eligible s o = true) (hcheck : recheck s o b = true) :
    evaluationCompletes s = evaluationEnds (assign k o b s) := by
  rw [evaluationCompletes, if_pos ⟨hevaluating, hposition⟩]
  simp [completePass, hk, ho, hbest, he, hcheck]

/-- A best candidate that fails the re-check begins the pass anew, at most three times. -/
theorem evaluationCompletes_fails (hbest : s.dsp.best = some b) (he : eligible s o = true) (hcheck : recheck s o b = false) :
    evaluationCompletes s = if s.dsp.restarts < 3 then beginPass k o (restarted s) else endUnassigned k s := by
  rw [evaluationCompletes, if_pos ⟨hevaluating, hposition⟩]
  simp [completePass, hk, ho, hbest, he, hcheck, Config.restartLimit, restarted]

/-- The fourth failure ends the evaluation, and so does a restart that finds no candidate. -/
theorem evaluationCompletes_gives_up (hbest : s.dsp.best = some b) (he : eligible s o = true)
    (hcheck : recheck s o b = false) (h : 3 ≤ s.dsp.restarts ∨ snapshot s o = []) :
    evaluationCompletes s = endUnassigned k s := by
  rw [evaluationCompletes_fails hevaluating hposition hk ho hbest he hcheck]
  split
  · next hlt =>
    have hnone : snapshot (restarted s) o = [] := h.resolve_left (Nat.not_le.2 hlt)
    have ho' : orderAt (restarted s) k = some o := ho
    rw [beginPass_unassigned (.inr hnone), endUnassigned_eq ho', endUnassigned_eq ho, evaluationEnds_run, evaluationEnds_run]
    rfl
  · rfl

theorem evaluationCompletes_restarts (hbest : s.dsp.best = some b) (he : eligible s o = true)
    (hcheck : recheck s o b = false) (hlt : s.dsp.restarts < 3) {c : Nat × CandKind} {cs : List (Nat × CandKind)}
    (hc : snapshot s o = c :: cs) :
    evaluationCompletes s = { s with dsp := { s.dsp with
      restarts := s.dsp.restarts + 1, snapshot := c :: cs, position := some c.1, best := none } } := by
  have he' : eligible (restarted s) o = true := he
  have hc' : snapshot (restarted s) o = c :: cs := hc
  rw [evaluationCompletes_fails hevaluating hposition hk ho hbest he hcheck, if_pos hlt]
  exact beginPass_scores he' hc'

end

/-! ### An assignment -/

/-- The reservations of an assignment leave the map, the vehicles and the agenda as they were (04 R83). -/
theorem reserveSource_frame (k : Nat) (o : OrderRec) (s : State) : (reserveSource k o s).map = s.map ∧
    (reserveSource k o s).flt = s.flt ∧ (reserveSource k o s).agenda = s.agenda := by
  unfold reserveSource
  split
  · split
    · exact ⟨putShelf_map .., putShelf_flt .., putShelf_agenda ..⟩
    · exact ⟨rfl, rfl, rfl⟩
  · exact ⟨rfl, rfl, rfl⟩

theorem reserveDest_frame (k : Nat) (o : OrderRec) (s : State) : (reserveDest k o s).map = s.map ∧
    (reserveDest k o s).flt = s.flt ∧ (reserveDest k o s).agenda = s.agenda := by
  unfold reserveDest
  split
  · split
    · next st _ => exact ⟨(reserveDrop_map_flt k st s).1, (reserveDrop_map_flt k st s).2, reserveDrop_agenda ..⟩
    · exact ⟨rfl, rfl, rfl⟩
  · exact ⟨rfl, rfl, rfl⟩

/-- The part with a source shelf and a drop shelf reserved for an order (04 R83). -/
def reservedFor (k : Nat) (o : OrderRec) (s : State) : State := reserveDest k o (reserveSource k o s)

theorem reservedFor_frame (k : Nat) (o : OrderRec) (s : State) : (reservedFor k o s).map = s.map ∧
    (reservedFor k o s).flt = s.flt ∧ (reservedFor k o s).agenda = s.agenda := by
  obtain ⟨hmap, hflt, hagenda⟩ := reserveSource_frame k o s
  obtain ⟨hmap', hflt', hagenda'⟩ := reserveDest_frame k o (reserveSource k o s)
  exact ⟨hmap'.trans hmap, hflt'.trans hflt, hagenda'.trans hagenda⟩

/-- An order's record as it is given to a vehicle at a time (03 R54). -/
def givenTo (v : Nat) (now : Time) (st : OrderState) (o : OrderRec) : OrderRec :=
  { o with state := st, vehicle := some v, assigned := some now }

/-- The part with an order reserved for and given to a vehicle. -/
def given (k v : Nat) (st : OrderState) (o o1 : OrderRec) (s : State) : State :=
  putOrder k (givenTo v s.clock st o1) (reservedFor k o s)

theorem veh_given (k v : Nat) (st : OrderState) (o o1 : OrderRec) (s : State) (w : Nat) :
    veh (given k v st o o1 s) w = veh s w :=
  veh_congr (reservedFor_frame k o s).2.1 w

theorem given_quiet (hquiet : Quiet s) (k v : Nat) (st : OrderState) (o o1 : OrderRec) : Quiet (given k v st o o1 s) :=
  (reservedFor_frame k o s).2.2.trans hquiet

/-- The record of a vehicle that is sent to fetch an order (04 R91). -/
def fetching (k : Nat) (r : Vehicle) : Vehicle :=
  { r with state := .toSource, current := some k, park := none, circulating := false }

/-- A change of a record and its new target are one write, with the tasks of the target (05 R106; 06 R121, R127). -/
theorem setTarget_modVeh (v g : Nat) {f : Vehicle → Vehicle} (hquiet : Quiet s) (hne : f (veh s v) ≠ {}) :
    setTarget v g (modVeh v f s) = { putVeh v { f (veh s v) with target := some g } s with
      agenda := (if standingAt (f (veh s v)) = some g then [.arrival v] else []) ++ [.revise v, .attempt v] } := by
  have hread : veh (modVeh v f s) v = f (veh s v) := veh_putVeh s v hne
  have hwrite : modVeh v (fun r => { r with target := some g }) (modVeh v f s) =
      putVeh v { f (veh s v) with target := some g } s := by
    rw [modVeh, hread]
    exact putVeh_putVeh v s hne rfl rfl rfl rfl
  have hquiet' : Quiet (putVeh v { f (veh s v) with target := some g } s) := (putVeh_agenda ..).trans hquiet
  rw [setTarget, targetTasks, hread, hwrite, push_quiet hquiet']

/-- A direct candidate goes to the source station's node; the park node it gives up is offered after its own tasks (log 5). -/
theorem assign_direct (hquiet : Quiet s) (hkind : b.kind = .direct) (hsource : o.source = .station a)
    (hnode : stationNode s a = some g) (ho1 : orderAt (reservedFor k o s) k = some o1) :
    assign k o b s =
      { putVeh b.vehicle { fetching k (veh s b.vehicle) with target := some g } (given k b.vehicle .assigned o o1 s) with
        agenda := (if standingAt (veh s b.vehicle) = some g then [.arrival b.vehicle] else []) ++
          [.revise b.vehicle, .attempt b.vehicle] ++ offerOf (veh s b.vehicle).park } := by
  obtain ⟨v, kind, n⟩ := b
  obtain rfl : kind = .direct := hkind
  let t := given k v .assigned o o1 s
  have hveh : veh t v = veh s v := veh_given ..
  have hne : fetching k (veh t v) ≠ {} := fun e => by cases congrArg Vehicle.state e
  have hgiven : modOrder k (givenTo v s.clock .assigned) (reservedFor k o s) = t := modOrder_of_orderAt ho1 _
  have hgoal : sourceNode (modVeh v (fetching k) t) o = some g := by
    rw [sourceNode, hsource]
    exact (stationNode_modVeh ..).trans ((stationNode_congr (reservedFor_frame k o s).1 a).trans hnode)
  have hassign : assign k o ⟨v, .direct, n⟩ s = push (offerOf (veh t v).park)
      (match sourceNode (modVeh v (fetching k) t) o with
        | some g => setTarget v g (modVeh v (fetching k) t)
        | none => modVeh v (fetching k) t) := by
    rw [← hgiven]; rfl
  rw [hassign, hgoal]
  dsimp only
  rw [setTarget_modVeh v g (given_quiet hquiet ..) hne, hveh]
  rfl

/-- A chain candidate takes the order behind its delivery. -/
theorem assign_chain (hkind : b.kind = .chain) (ho1 : orderAt (reservedFor k o s) k = some o1) :
    assign k o b s =
      putVeh b.vehicle { veh s b.vehicle with chained := some k } (given k b.vehicle .chained o o1 s) := by
  obtain ⟨v, kind, n⟩ := b
  obtain rfl : kind = .chain := hkind
  have hgiven : modOrder k (givenTo v s.clock .chained) (reservedFor k o s) = given k v .chained o o1 s :=
    modOrder_of_orderAt ho1 _
  rw [← veh_given k v .chained o o1 s v, ← hgiven]
  rfl

/-- Settles O37: by the pass's outcome: an assignment to a direct or a chain candidate, an end, or a restart. -/
theorem aCompletedPassAssignsEndsOrRestarts : Obligations.ACompletedPassAssignsEndsOrRestarts := by
  unfold Obligations.ACompletedPassAssignsEndsOrRestarts
  intro ended
  have hends (t : State) : evaluationEnds t = ended t := evaluationEnds_run t
  refine ⟨?assigns, ?unassigned⟩
  case assigns =>
    intro k a g o b s hquiet hevaluating hposition hk ho hbest hsource hnode he hcheck r picked reserved
    have hpicked : reserveSource k o s = picked := by rw [reserveSource, hsource]; rfl
    have hreserved : reservedFor k o s = reserved := by
      rw [reservedFor, hpicked, reserveDest]
      unfold reserved
      cases o.dest <;> rfl
    intro o1 ho1 given
    rw [← hreserved] at ho1
    have hgiven (st : OrderState) : Machine.given k b.vehicle st o o1 s = given st := by rw [Machine.given, hreserved]; rfl
    have hcompletes := evaluationCompletes_assigns hevaluating hposition hk ho hbest he hcheck
    refine ⟨fun hdirect => ?direct, fun hchain => ?chain⟩
    case direct =>
      rw [assign_direct hquiet hdirect hsource hnode ho1, hgiven, hends] at hcompletes
      exact event_settle_of hcompletes
    case chain =>
      rw [assign_chain hchain ho1, hgiven, hends] at hcompletes
      refine event_finish_of hcompletes ((putVeh_agenda ..).trans ?_)
      rw [← hgiven]
      exact given_quiet hquiet ..
  case unassigned =>
    intro k o s hquiet hk ho unassigned
    have hunassigned : endUnassigned k s = unassigned := (endUnassigned_eq ho).trans (hends _)
    have hquiet' : Quiet unassigned := hquiet
    refine ⟨fun hearly => event_finish_of (evaluationCompletes_early hearly) hquiet, fun hevaluating hposition =>
      ⟨fun hbest => ?none, fun b hbest => ⟨fun he => ?ineligible, fun he hcheck =>
        ⟨fun hlast => ?last, fun hlt c cs hc => ?restart⟩⟩⟩⟩
    case none =>
      exact event_finish_of ((evaluationCompletes_no_best hevaluating hposition hk ho hbest).trans hunassigned) hquiet'
    case ineligible =>
      exact event_finish_of ((evaluationCompletes_ineligible hevaluating hposition hk ho hbest he).trans hunassigned) hquiet'
    case last =>
      exact event_finish_of
        ((evaluationCompletes_gives_up hevaluating hposition hk ho hbest he hcheck hlast).trans hunassigned) hquiet'
    case restart =>
      exact event_finish_of (evaluationCompletes_restarts hevaluating hposition hk ho hbest he hcheck hlt hc) hquiet

end Sys2Proof.Machine
end

section
/-! AGING, STALL, CONVOY and RACK_SILENCE expiries (04 R71, 06 R138, 07 R143, 09 R176). -/

namespace Sys2Proof.Machine

variable {s : State}

/-- A live order a period older, if it is pending (04 R71). -/
def aged : Option Live → Option Live
  | some (.move r) => some (.move { r with age := if r.state = .pending then min 255 (r.age + 1) else r.age })
  | l => l

theorem ageAll_eq (s : State) : ageAll s = { s with orders := s.orders.map (fun p => (p.1, aged p.2)) } := by
  unfold ageAll
  congr 1
  refine List.map_congr_left fun p _ => ?_
  rcases p.2 with _ | r | d
  · rfl
  · by_cases hr : r.state = .pending <;> simp [aged, hr]
  · rfl

theorem agingExpires_stopped (h : s.dsp.agingStart = none) : agingExpires s = s := by
  rw [agingExpires, h]

/-- The period has run or not, from its start (log 12). -/
theorem agingExpires_started {t : Time} (h : s.dsp.agingStart = some t) : agingExpires s =
    if elapsed s.clock t < s.map.globals.agingPeriod * 1000 then s
    else ageAll { s with dsp := { s.dsp with agingStart := some (t + BitVec.ofNat 32 (s.map.globals.agingPeriod * 1000)) } } := by
  rw [agingExpires, h]

/-- A vehicle's wait gets its stall mark; the other waits keep theirs (06 R138). -/
def markStalled (v : Nat) (w : Wait) : Wait := { w with stalled := w.stalled || decide (w.vehicle = v) }

theorem markStalled_eq (v : Nat) (w : Wait) : (if w.vehicle = v then { w with stalled := true } else w) = markStalled v w := by
  by_cases hw : w.vehicle = v <;> simp [markStalled, hw]

theorem stallExpires_eq (z v : Nat) (s : State) : stallExpires z v s =
    if (zoneRec s z).waiters.any (fun w => decide (w.vehicle = v) && !w.stalled &&
        decide (s.map.globals.stallLimit * 1000 ≤ elapsed s.clock w.since)) then
      putZone z { zoneRec s z with stall := true, waiters := (zoneRec s z).waiters.map (markStalled v) } s
    else s := by
  simp only [stallExpires, markStalled_eq]

theorem agingExpires_agenda (s : State) : (agingExpires s).agenda = s.agenda := by
  cases h : s.dsp.agingStart with
  | none => rw [agingExpires_stopped h]
  | some t => rw [agingExpires_started h]; split <;> rfl
theorem stallExpires_agenda (z v : Nat) (s : State) : (stallExpires z v s).agenda = s.agenda := by
  rw [stallExpires_eq]; split <;> rfl
theorem convoyExpires_agenda (m : Nat) (s : State) : (convoyExpires m s).agenda = s.agenda := by
  unfold convoyExpires
  split
  · split <;> rfl
  · rfl

/-- Settles O51: each expiry by its timer. -/
theorem periodsAndLimitsExpire : Obligations.PeriodsAndLimitsExpire := by
  unfold Obligations.PeriodsAndLimitsExpire
  intro z v m b s hquiet period
  have hfinish {f : State → State} (hf : (f s).agenda = s.agenda) : event f s = .next (finish s (f s)) :=
    event_quiet (hf.trans hquiet)
  refine ⟨(hfinish (agingExpires_agenda s)).trans ?aging, (hfinish (stallExpires_agenda z v s)).trans ?stall,
    (hfinish (convoyExpires_agenda m s)).trans ?convoy, ?rack⟩
  case aging =>
    cases h : s.dsp.agingStart with
    | none => rw [agingExpires_stopped h]
    | some t => rw [agingExpires_started h, ageAll_eq]; rfl
  case stall => rw [stallExpires_eq]; rfl
  case convoy => rfl
  case rack => rfl

end Sys2Proof.Machine
end

section
/-! SUPPORT. Shelves written one after another, each at most once, and what DSP is told of it (04 R73; 09 R172). -/

namespace Sys2Proof.Machine

variable {s : State}

/-! ### Availability changes -/

/-- DSP is told of a fleet availability change, or of none (04 R73). -/
def tellIf (p : Bool) (s : State) : State := if p then availability s else s

theorem told_told (l : Option Live) : told (told l) = told l := by
  rcases l with _ | r | d
  · rfl
  · by_cases hr : r.state = .pending <;> simp [told, hr]
  · rfl

/-- What an availability change does, it does once (04 R72, R73). -/
theorem availability_availability (s : State) : availability (availability s) = availability s := by
  have horders : (s.orders.map (fun p => (p.1, told p.2))).map (fun p => (p.1, told p.2)) =
      s.orders.map (fun p => (p.1, told p.2)) := by
    simp only [List.map_map, Function.comp_def, told_told]
  have hseen : (s.dsp.changeSeen || s.dsp.evaluating || s.dsp.evaluating) = (s.dsp.changeSeen || s.dsp.evaluating) := by
    rw [Bool.or_assoc, Bool.or_self]
  have htold (t : State) : availability t = { t with
      dsp := { t.dsp with changeSeen := t.dsp.changeSeen || t.dsp.evaluating },
      orders := t.orders.map (fun p => (p.1, told p.2)) } := rfl
  rw [htold (availability s), htold s]
  dsimp only
  rw [horders, hseen]

theorem tellIf_tellIf (p q : Bool) (s : State) : tellIf q (tellIf p s) = tellIf (p || q) s := by
  cases p with
  | false => rfl
  | true => cases q with
    | false => rfl
    | true => exact availability_availability s

/-! ### Shelves written one after another -/

/-- The part with other shelves. -/
def withShelves (tb : Table Shelf) (s : State) : State := { s with buf := { s.buf with shelves := tb } }

theorem tellIf_withShelves (p : Bool) (tb : Table Shelf) (s : State) :
    tellIf p (withShelves tb s) = withShelves tb (tellIf p s) := by
  cases p <;> rfl

theorem putShelf_eq (st : Nat) (h : Shelf) (s : State) :
    putShelf st h s = withShelves (tset {} s.buf.shelves st h) (tellIf (shelfAvail (shelfAt s st) h) s) := by
  rw [← tellIf_withShelves]
  rfl

/-- Each shelf of a list changed in its turn. -/
def changeShelves (f : Nat → Shelf → Shelf) (sts : List Nat) (s : State) : State :=
  sts.foldl (fun t st => putShelf st (f st (shelfAt t st)) t) s

/-- Whether the change of some shelf of a list is an availability change (04 R73). -/
def anyAvail (f : Nat → Shelf → Shelf) (sts : List Nat) (s : State) : Bool :=
  sts.any (fun st => shelfAvail (shelfAt s st) (f st (shelfAt s st)))

theorem shelfAt_changeShelves {f : Nat → Shelf → Shelf} {sts : List Nat} (hs : Sound s) (hnodup : sts.Nodup) (st : Nat) :
    shelfAt (changeShelves f sts s) st = if st ∈ sts then f st (shelfAt s st) else shelfAt s st := by
  induction sts generalizing s with
  | nil => rfl
  | cons x sts ih =>
    obtain ⟨hx, hnodup⟩ := List.nodup_cons.1 hnodup
    have hrest : shelfAt (changeShelves f (x :: sts) s) st = _ := ih (putShelf_sound x (f x (shelfAt s x)) hs) hnodup
    rw [hrest]
    by_cases hst : st = x
    · subst hst
      rw [if_neg hx, if_pos List.mem_cons_self, hs.shelfAt_putShelf]
    · rw [shelfAt_putShelf_other _ _ hst]
      simp only [List.mem_cons, hst, false_or]

/-- Only the shelves are written, and DSP is told once of all their availability changes. -/
theorem changeShelves_eq (f : Nat → Shelf → Shelf) {sts : List Nat} (hnodup : sts.Nodup) (s : State) :
    ∃ tb, changeShelves f sts s = withShelves tb (tellIf (anyAvail f sts s) s) := by
  induction sts generalizing s with
  | nil => exact ⟨s.buf.shelves, rfl⟩
  | cons x sts ih =>
    obtain ⟨hx, hnodup⟩ := List.nodup_cons.1 hnodup
    obtain ⟨tb, htb⟩ := ih hnodup (putShelf x (f x (shelfAt s x)) s)
    have hlater : anyAvail f sts (putShelf x (f x (shelfAt s x)) s) = anyAvail f sts s := by
      rw [anyAvail, anyAvail, Bool.eq_iff_iff, List.any_eq_true, List.any_eq_true]
      refine exists_congr fun st => and_congr_right fun hst => ?_
      have hne : st ≠ x := by rintro rfl; exact hx hst
      rw [shelfAt_putShelf_other _ _ hne]
    refine ⟨tb, htb.trans ?_⟩
    rw [hlater, putShelf_eq, tellIf_withShelves, tellIf_tellIf]
    rfl

end Sys2Proof.Machine
end

section
/-! SCAN: the assembly of a scan, and a complete one applied (09 R173 to R175, R178). -/

namespace Sys2Proof.Machine

variable {s : State} {e : BayEntry} {b q first : Nat} {last : Bool} {rows : List Nat}

/-! ### The frame -/

theorem verdictOf_scan (hb : b < 64) (hfirst : first < 8) (hone : 1 ≤ rows.length) (hrows : first + rows.length ≤ 8) :
    verdictOf (.scan (256 + b) q first last rows) = .whole (.scan (256 + b) q first last rows) := by
  have hsource : sourceOk (256 + b) 0x21 = true := by
    simp only [sourceOk, if_neg (show ¬ 256 + b < 256 by omega), Bool.and_eq_true, decide_eq_true_eq,
      and_true]
    omega
  have hfields : fieldsOk (.scan (256 + b) q first last rows) = true := by
    simp only [fieldsOk, Bool.and_eq_true, decide_eq_true_eq]
    omega
  simp only [verdictOf, inAddr, inKind, hsource, hfields, Bool.not_true, Bool.false_eq_true, if_false]

/-- A SCAN that passes its tests without LINK_HOLD reaches its bay's rack. -/
theorem receive_scan (hlink : s.tsl.linkHold = false) (hb : b < 64) (hfirst : first < 8) (hone : 1 ≤ rows.length)
    (hrows : first + rows.length ≤ 8) :
    receive (.scan (256 + b) q first last rows) false s = scanFrame b q first last rows s := by
  have hheard : unheard false s = false := hlink
  rw [receive, hheard, verdictOf_scan hb hfirst hone hrows]
  exact congrArg (fun a => scanFrame a q first last rows s) (Nat.add_sub_cancel_left 256 b)

/-- The rows that a frame of sequence `q` joins: those of the assembly under way, if it has that sequence (09 R173). -/
def rowsSoFar (k : Rack) (q : Nat) : Table (Option Nat) := match k.assembly with
  | some a => if a.seq = q then a.rows else []
  | none => []

theorem allRows_iff (e : BayEntry) (t : Table (Option Nat)) : allRows e t = true ↔ ∀ i < e.rows, tget none t i ≠ none := by
  simp only [allRows, List.all_eq_true, List.mem_range, Option.isSome_iff_ne_none]

section
variable (hcom : committed s = true) (hbay : bayAt s b = some e)
include hcom hbay

/-- A repeat of the last completed sequence with no assembly under way. -/
theorem scanFrame_repeat (hseq : (rackAt s b).lastSeq = some q) (hopen : (rackAt s b).assembly = none) :
    scanFrame b q first last rows s = s := by
  simp [scanFrame, hcom, hbay, hseq, hopen]

theorem scanFrame_joins (hrack : hasRack e = true) (hnew : ¬ ((rackAt s b).lastSeq = some q ∧ (rackAt s b).assembly = none)) :
    scanFrame b q first last rows s =
      if last = false then putRack b { rackAt s b with
        assembly := some { seq := q, rows := enterRows e first rows (rowsSoFar (rackAt s b) q) } } s
      else if allRows e (enterRows e first rows (rowsSoFar (rackAt s b) q)) then
        applyScan e (enterRows e first rows (rowsSoFar (rackAt s b) q))
          (putRack b { assembly := none, lastSeq := some q, timer := some s.clock } s)
      else putRack b { rackAt s b with assembly := none } s := by
  have hnew' : (decide ((rackAt s b).lastSeq = some q) && (rackAt s b).assembly.isNone) = false := by
    simpa only [Bool.and_eq_false_iff, decide_eq_false_iff_not, Option.isNone_eq_false_iff, Option.isSome_iff_ne_none,
      Decidable.not_and_iff_or_not] using hnew
  simp only [scanFrame, hcom, if_true, hbay, hrack, hnew', Bool.not_true, Bool.or_self, Bool.false_eq_true, if_false,
    Bool.not_eq_true']
  rfl

end

/-! ### The rows of a frame -/

/-- A row outside the frame, or outside the rack, keeps its reading. -/
theorem tget_enterRows_other {r : Nat} {got : Table (Option Nat)}
    (h : r < first ∨ first + rows.length ≤ r ∨ e.rows ≤ r) :
    tget none (enterRows e first rows got) r = tget none got r := by
  induction rows generalizing first got with
  | nil => rfl
  | cons x xs ih =>
    rw [List.length_cons] at h
    rw [enterRows, ih (by omega)]
    split
    · exact tget_tset_other _ _ _ (by omega)
    · rfl

/-- A row of the rack reads as the frame has it, in the rack's columns. -/
theorem tget_enterRows_read {i x : Nat} {got : Table (Option Nat)} (hx : rows[i]? = some x) (hr : first + i < e.rows) :
    tget none (enterRows e first rows got) (first + i) = some (x % 2 ^ e.cols) := by
  induction rows generalizing first i got with
  | nil => simp at hx
  | cons y ys ih =>
    rw [enterRows]
    cases i with
    | zero =>
      obtain rfl : y = x := by simpa using hx
      change tget none (enterRows e (first + 1) ys _) first = _
      rw [tget_enterRows_other (.inl (Nat.lt_succ_self first)), if_pos (show first < e.rows from hr)]
      exact tget_tset_of_ne _ _ _ (Option.some_ne_none _)
    | succ i =>
      rw [show first + (i + 1) = first + 1 + i by omega] at hr ⊢
      exact ih (by simpa using hx) hr

/-! ### A complete scan -/

/-- What a complete scan makes of the shelf of a station of the rack. -/
def scanned (e : BayEntry) (rows : Table (Option Nat)) (st : Nat) : Shelf → Shelf :=
  scannedShelf (readPresent rows ((st - e.firstShelf) / e.cols) ((st - e.firstShelf) % e.cols))
    (infer e rows ((st - e.firstShelf) / e.cols) ((st - e.firstShelf) % e.cols))

theorem rackShelves_nodup (e : BayEntry) : (rackShelves e).Nodup :=
  List.Pairwise.map _ (fun _ _ hne h => hne (Nat.add_left_cancel h)) List.nodup_range

theorem mem_rackShelves {r c : Nat} (hr : r < e.rows) (hc : c < e.cols) :
    e.firstShelf + (r * e.cols + c) ∈ rackShelves e := by
  refine List.mem_map_of_mem (List.mem_range.2 ?_)
  calc r * e.cols + c < r * e.cols + e.cols := Nat.add_lt_add_left hc _
    _ = (r + 1) * e.cols := (Nat.succ_mul r e.cols).symm
    _ ≤ e.rows * e.cols := Nat.mul_le_mul_right _ hr

theorem scanned_at (rows : Table (Option Nat)) (r : Nat) {c : Nat} (hc : c < e.cols) :
    scanned e rows (e.firstShelf + (r * e.cols + c)) = scannedShelf (readPresent rows r c) (infer e rows r c) := by
  have hrow : (r * e.cols + c) / e.cols = r := by
    rw [Nat.mul_comm, Nat.mul_add_div (Nat.zero_lt_of_lt hc), Nat.div_eq_of_lt hc, Nat.add_zero]
  have hcol : (r * e.cols + c) % e.cols = c := by
    rw [Nat.mul_comm, Nat.mul_add_mod, Nat.mod_eq_of_lt hc]
  rw [scanned, Nat.add_sub_cancel_left, hrow, hcol]

/-- A complete scan is read shelf by shelf; then the drops that left EMPTY are chosen anew (09 R175, R180). -/
theorem applyScan_eq (e : BayEntry) (rows : Table (Option Nat)) (s : State) :
    applyScan e rows s = rechooseAll (leftEmpty s (changeShelves (scanned e rows) (rackShelves e) s) (rackShelves e))
      (changeShelves (scanned e rows) (rackShelves e) s) := by
  have hfold : changeShelves (scanned e rows) (rackShelves e) s = (List.range (e.rows * e.cols)).foldl (fun t i =>
      putShelf (e.firstShelf + i) (scannedShelf (readPresent rows (i / e.cols) (i % e.cols))
        (infer e rows (i / e.cols) (i % e.cols)) (shelfAt t (e.firstShelf + i))) t) s := by
    simp only [changeShelves, rackShelves, List.foldl_map, scanned, Nat.add_sub_cancel_left]
  rw [hfold]
  rfl

theorem confirm_eq (x : Sense) (pending sensed : Option Sense) : confirm x pending sensed =
    (if decide (sensed = some x) || decide (pending = some x) then none else some x,
      if decide (sensed = some x) || decide (pending = some x) then some x else sensed) := by
  by_cases hsame : sensed = some x
  · simp [confirm, hsame]
  · by_cases hpending : pending = some x <;> simp [confirm, hsame, hpending]

/-- The placed mark is lost where a shelf comes to be sensed EMPTY (09 R178). -/
theorem placed_confirmed (h : Shelf) (now : Option Sense) :
    (if h.sensed ≠ some .empty ∧ now = some .empty then false else h.placed) =
      (h.placed && !(decide (now = some .empty) && !decide (h.sensed = some .empty))) := by
  by_cases hnow : now = some .empty <;> by_cases hsensed : h.sensed = some .empty <;> simp [hnow, hsensed]

/-- Confirmation of one shelf (09 R175, R178). -/
theorem scannedShelf_eq (present : Bool) (x : Sense) (h : Shelf) :
    let same : Bool := decide (h.sensed = some x)
    let now : Option Sense := if same || decide (h.pending = some x) then some x else h.sensed
    scannedShelf present x h = { h with
      raw := some (if present then .present else .absent), inferred := some x, sensed := now,
      pending := if same || decide (h.pending = some x) then none else some x,
      placed := h.placed && !(decide (now = some .empty) && !decide (h.sensed = some .empty)) } := by
  simp only [scannedShelf, confirm_eq, placed_confirmed]

/-- A scan leaves the logical state of a shelf, so its availability change is one of the sensed state or the placed mark. -/
theorem shelfAvail_scanned (e : BayEntry) (rows : Table (Option Nat)) (st : Nat) (h : Shelf) :
    shelfAvail h (scanned e rows st h) = true ↔
      (scanned e rows st h).sensed ≠ h.sensed ∨ (scanned e rows st h).placed ≠ h.placed := by
  have hlogical : (scanned e rows st h).logical = h.logical := rfl
  simp only [shelfAvail, hlogical, decide_true, Bool.not_true, Bool.or_false, Bool.or_eq_true, Bool.not_eq_true',
    decide_eq_false_iff_not]
  exact or_congr ne_comm ne_comm

/-- DSP is told of a scan when the sensed state or the placed mark of some shelf changed (04 R73). -/
theorem anyAvail_scanned (hs : Sound s) (e : BayEntry) (rows : Table (Option Nat)) :
    anyAvail (scanned e rows) (rackShelves e) s = true ↔ ∃ st ∈ rackShelves e,
      (shelfAt (changeShelves (scanned e rows) (rackShelves e) s) st).sensed ≠ (shelfAt s st).sensed ∨
      (shelfAt (changeShelves (scanned e rows) (rackShelves e) s) st).placed ≠ (shelfAt s st).placed := by
  rw [anyAvail, List.any_eq_true]
  refine exists_congr fun st => and_congr_right fun hst => ?_
  rw [shelfAvail_scanned, shelfAt_changeShelves hs (rackShelves_nodup e), if_pos hst]

/-- Settles O46: the assembly by sequence, completeness and last mark; its rows; the shelves of a complete scan. -/
theorem aScanFrameJoinsItsAssembly : Obligations.AScanFrameJoinsItsAssembly := by
  unfold Obligations.AScanFrameJoinsItsAssembly
  refine ⟨?frame, fun e first rows got r => ⟨?read, fun hother => tget_enterRows_other hother⟩, ?confirms⟩
  case frame =>
    intro b q first last rows e s hquiet hlink hb hfirst hone hrows hcom hbay herows hecols k got t
    have hrack : hasRack e = true := by simp [hasRack, herows, hecols]
    have hreceive := receive_scan (q := q) (last := last) hlink hb hfirst hone hrows
    have hall := allRows_iff e t
    by_cases hrepeat : k.lastSeq = some q ∧ k.assembly = none
    · rw [if_pos hrepeat]
      obtain ⟨hseq, hopen⟩ := hrepeat
      exact event_finish_of (hreceive.trans (scanFrame_repeat hcom hbay hseq hopen)) hquiet
    · have hjoins := hreceive.trans (scanFrame_joins hcom hbay hrack hrepeat)
      change _ = if last = false then _ else if allRows e t then applyScan e t _ else _ at hjoins
      rw [if_neg hrepeat]
      by_cases hlast : last = false
      · rw [if_pos hlast] at hjoins ⊢
        exact event_finish_of hjoins hquiet
      · rw [if_neg hlast] at hjoins ⊢
        by_cases hcomplete : ∀ i < e.rows, tget none t i ≠ none
        · rw [if_pos (hall.2 hcomplete)] at hjoins
          rw [if_pos hcomplete]
          exact event_settle_of hjoins
        · rw [if_neg (fun h => hcomplete (hall.1 h))] at hjoins
          rw [if_neg hcomplete]
          exact event_finish_of hjoins hquiet
  case read =>
    rintro i x hx rfl hr
    exact tget_enterRows_read hx hr
  case confirms =>
    intro e rows s hs
    have hread := shelfAt_changeShelves (f := scanned e rows) hs (rackShelves_nodup e)
    have htold := anyAvail_scanned hs e rows
    have hscan := applyScan_eq e rows s
    obtain ⟨tb, htb⟩ := changeShelves_eq (scanned e rows) (rackShelves_nodup e) s
    refine ⟨changeShelves (scanned e rows) (rackShelves e) s, hscan, ?blocks, ?racks, fun r c hr hc => ?shelf,
      fun st hst => ?other, ?tells⟩
    case blocks => rw [htb]; cases anyAvail (scanned e rows) (rackShelves e) s <;> rfl
    case racks => rw [htb]; cases anyAvail (scanned e rows) (rackShelves e) s <;> rfl
    case shelf =>
      rw [hread, if_pos (mem_rackShelves hr hc), scanned_at rows r hc]
      exact scannedShelf_eq ..
    case other => rw [hread, if_neg hst]
    case tells =>
      intro changes
      cases hany : anyAvail (scanned e rows) (rackShelves e) s with
      | false =>
        have hnone : ¬ changes := fun h => by rw [htold.2 h] at hany; cases hany
        rw [htb, hany]
        exact ⟨fun _ => ⟨rfl, rfl⟩, fun h => absurd h hnone⟩
      | true =>
        have hsome : changes := htold.1 hany
        rw [htb, hany]
        exact ⟨fun h => absurd hsome h, fun _ => ⟨rfl, rfl⟩⟩

end Sys2Proof.Machine
end

section
/-! The fleet directives that end as they are taken: FLEET_OPEN, RELEASE, POOL_POLICY and STATION_STATE (05 R96, R100, R101;
09 R171). -/

namespace Sys2Proof.Machine

variable {s : State} {slot : Nat} {tag : BitVec 32} {op : SlotOp}

/-! ### Conditionals branch by branch -/

/-- Two conditionals of equivalent conditions agree if their branches do, each under its own condition. -/
theorem ite_ctx_congr_iff {α : Type} {p q : Prop} [Decidable p] [Decidable q] {a b c d : α} (h : p ↔ q)
    (hthen : q → a = c) (helse : ¬ q → b = d) : (if p then a else b) = if q then c else d :=
  ite_congr (propext h) hthen helse

theorem ite_congr_iff {α : Type} {p q : Prop} [Decidable p] [Decidable q] {a b c d : α} (h : p ↔ q)
    (hthen : a = c) (helse : b = d) : (if p then a else b) = if q then c else d :=
  ite_ctx_congr_iff h (fun _ => hthen) fun _ => helse

/-! ### What a taking is -/

/-- A slot's row, taken, whose effect is known. -/
theorem event_taken (htake : takeable s slot = true) {b : State} (h : routeOrder (taking s slot tag) op (countTaking s) = b) :
    event (takeRow slot tag op) s = .next (settle s b) :=
  event_settle_of ((takeRow_taken htake).trans h)

/-- A slot's row, taken, whose effect is known and asks the blocks for nothing. -/
theorem event_taken_ends (htake : takeable s slot = true) {b : State}
    (h : routeOrder (taking s slot tag) op (countTaking s) = b) (hb : Quiet b) :
    event (takeRow slot tag op) s = .next (finish s b) :=
  event_finish_of ((takeRow_taken htake).trans h) hb

theorem settle_refuses (hquiet : Quiet s) (reason : Reason) :
    settle s (refuses s slot tag reason) = finish s (refuses s slot tag reason) := settle_quiet hquiet
theorem settle_refuseNow (hquiet : Quiet s) (reason : Reason) :
    settle s (refuseNow (taking s slot tag) reason (countTaking s)) = finish s (refuses s slot tag reason) :=
  settle_refuses hquiet reason

theorem not_committed_iff : (!committed s) = true ↔ committed s = false := by rw [Bool.not_eq_true']
theorem bayDefined_eq_false {b : Nat} : bayDefined s b = false ↔ bayAt s b = none := by simp [bayDefined]
theorem stationDefined_eq_false {st : Nat} : stationDefined s st = false ↔ stationAt s st = none := by simp [stationDefined]

theorem quiet_ite {p : Prop} [Decidable p] {a b : State} (ha : Quiet a) (hb : Quiet b) : Quiet (if p then a else b) := by
  split
  · exact ha
  · exact hb

/-! ### The directives -/

theorem takeFleetOpen_eq (hquiet : Quiet s) : takeFleetOpen (taking s slot tag) (countTaking s) =
    if committed s = false then refuses s slot tag .mapNotCommitted
    else if s.flt.phase = .operating then completes s slot tag s
    else completes s slot tag { s with
      flt := { s.flt with phase := .operating }, agenda := (fleet s).map (fun p => .attempt p.1) } := by
  have hopen : Quiet { countTaking s with flt := { s.flt with phase := .operating } } := hquiet
  refine ite_congr_iff not_committed_iff rfl (ite_congr_iff Iff.rfl rfl ?_)
  exact congrArg (completeNow _ 0) (push_quiet hopen _)

/-- A record that loses QUARANTINED is a fleet availability change, and no other change of its record is (04 R73). -/
theorem putVeh_released (v : Nat) (h : (veh s v).quarantined = true) : putVeh v { veh s v with quarantined := false } s =
    availability { s with flt := { s.flt with vehicles := tset {} s.flt.vehicles v { veh s v with quarantined := false } } } := by
  have havail : availChange (veh s v) { veh s v with quarantined := false } = true := by simp [availChange, h]
  have hleave : leavesWindow (veh s v) { veh s v with quarantined := false } = false := by simp [leavesWindow]
  simp [putVeh, havail, hleave]

theorem takeRelease_eq (v : Nat) : takeRelease (taking s slot tag) v (countTaking s) =
    if committed s = false then refuses s slot tag .mapNotCommitted
    else if 255 < v then refuses s slot tag .badOperand
    else if (veh s v).quarantined = false then refuses s slot tag .notQuarantined
    else if (veh s v).state = .faulted ∨ (veh s v).retiring = true then refuses s slot tag .vehicleState
    else completes s slot tag (availability { s with
      flt := { s.flt with vehicles := tset {} s.flt.vehicles v { veh s v with quarantined := false } } }) := by
  unfold takeRelease
  refine ite_congr_iff not_committed_iff rfl (ite_congr_iff Iff.rfl rfl ?_)
  refine ite_ctx_congr_iff Iff.rfl (fun _ => rfl) fun hquarantined => ite_congr_iff Iff.rfl rfl ?_
  exact congrArg (completeNow _ 0) (putVeh_released (s := countTaking s) v (eq_true_of_ne_false hquarantined))

theorem takePoolPolicy_eq (bay marks reserve : Nat) : takePoolPolicy (taking s slot tag) bay marks reserve (countTaking s) =
    if committed s = false then refuses s slot tag .mapNotCommitted
    else if 63 < bay ∨ bayAt s bay = none then refuses s slot tag .badOperand
    else
      let p : Policy := { lend := marks.testBit 0, borrow := marks.testBit 1, reserve := min 15 reserve }
      endsDirective s slot tag .completed none 0 (if 15 < reserve then 32 else 0)
        (availability { s with map := { s.map with policy := tset {} s.map.policy bay p } }) := by
  refine ite_congr_iff not_committed_iff rfl (ite_congr_iff (or_congr Iff.rfl bayDefined_eq_false) rfl ?_)
  by_cases hreserve : 15 < reserve <;> simp only [hreserve, decide_true, decide_false] <;> rfl

theorem takeStationState_eq (st state : Nat) : takeStationState (taking s slot tag) st state (countTaking s) =
    if committed s = false then refuses s slot tag .mapNotCommitted
    else if 4095 < st ∨ stationAt s st = none ∨ 1 < state then refuses s slot tag .badOperand
    else if stationClosed s st = decide (state = 1) then completes s slot tag s
    else completes s slot tag (availability { s with
      map := { s.map with liveClosed := tset false s.map.liveClosed st (decide (state = 1)) } }) := by
  refine ite_congr_iff not_committed_iff rfl (ite_congr_iff (or_congr Iff.rfl (or_congr stationDefined_eq_false Iff.rfl)) rfl ?_)
  exact apply_ite (completeNow _ 0) ..

/-- Settles O24: each directive's refusals in order, then its effect. -/
theorem directivesThatEndAtOnce : Obligations.DirectivesThatEndAtOnce := by
  unfold Obligations.DirectivesThatEndAtOnce
  refine ⟨fun slot tag s hquiet htake => ?opened, ?released, fun slot tag bay marks reserve s hquiet htake => ?policy,
    fun slot tag st state s hquiet htake => ?state⟩
  case opened =>
    refine (event_taken (op := .fleetOpen) htake (takeFleetOpen_eq hquiet)).trans (congrArg _ ?_)
    rw [settle_ite, settle_ite]
    exact ite_congr_iff Iff.rfl (settle_refuses hquiet _) (ite_congr_iff Iff.rfl (settle_quiet hquiet) rfl)
  case released =>
    intro slot tag v s hquiet htake r
    exact event_taken_ends (op := .release v) htake (takeRelease_eq v)
      (quiet_ite hquiet (quiet_ite hquiet (quiet_ite hquiet (quiet_ite hquiet hquiet))))
  case policy =>
    exact event_taken_ends (op := .poolPolicy bay marks reserve) htake (takePoolPolicy_eq bay marks reserve)
      (quiet_ite hquiet (quiet_ite hquiet hquiet))
  case state =>
    exact event_taken_ends (op := .stationState st state) htake (takeStationState_eq st state)
      (quiet_ite hquiet (quiet_ite hquiet (quiet_ite hquiet hquiet)))

end Sys2Proof.Machine
end

section
/-! SUPPORT. The taking of a fleet directive beside what it does to records, zones and the link (05, section 5.3). -/

namespace Sys2Proof.Machine

variable {s t b : State}

/-- A directive taken at `s` has done `b` by the time the part is at `t`: `t` is `b` with the taking counted, and what was
done leaves Intake and the clock as they were and asks the blocks for nothing. -/
structure TakenTo (s t b : State) : Prop where
  counted : t = countTaking b
  ink : b.ink = s.ink
  clock : b.clock = s.clock
  quiet : Quiet b

theorem TakenTo.refl (hquiet : Quiet s) : TakenTo s (countTaking s) s := ⟨rfl, rfl, rfl, hquiet⟩

theorem putVeh_countTaking (v : Nat) (r : Vehicle) (s : State) : putVeh v r (countTaking s) = countTaking (putVeh v r s) := by
  have hveh : veh (countTaking s) v = veh s v := rfl
  unfold putVeh
  rw [hveh]
  dsimp only
  (repeat' split) <;> rfl

theorem TakenTo.putVeh (h : TakenTo s t b) (v : Nat) (r : Vehicle) : TakenTo s (putVeh v r t) (putVeh v r b) where
  counted := by rw [h.counted, putVeh_countTaking]
  ink := (putVeh_ink ..).trans h.ink
  clock := (putVeh_clock ..).trans h.clock
  quiet := (putVeh_agenda ..).trans h.quiet

theorem TakenTo.occupy (h : TakenTo s t b) (v z : Nat) : TakenTo s (occupy v z t) (occupy v z b) where
  counted := by rw [h.counted]; rfl
  ink := h.ink
  clock := h.clock
  quiet := h.quiet

theorem queueStand_eq (v : Nat) (s : State) : queueStand v s = { s with tsl := { s.tsl with
    grantQueue := if s.tsl.linkHold then s.tsl.grantQueue else enqueue v false s.tsl.grantQueue } } := by
  unfold queueStand
  split <;> rfl

/-- A vehicle heard of anew: its silence timer runs and a STAND is queued (05 R97, R99). -/
theorem TakenTo.listens (h : TakenTo s t b) (v : Nat) :
    TakenTo s (queueStand v (restartSilence v t)) (queueStand v (restartSilence v b)) where
  counted := by rw [h.counted, queueStand_eq, queueStand_eq]; rfl
  ink := (queueStand_ink ..).trans h.ink
  clock := (queueStand_clock ..).trans h.clock
  quiet := (queueStand_agenda ..).trans h.quiet

theorem TakenTo.ite {p : Prop} [Decidable p] {t' b' : State} (h : TakenTo s t b) (h' : TakenTo s t' b') :
    TakenTo s (if p then t else t') (if p then b else b') := by
  split
  · exact h
  · exact h'

/-- A directive that ends as it is taken and asks the blocks for some tasks. -/
theorem TakenTo.completes {slot : Nat} {tag : BitVec 32} (h : TakenTo s t b) (ts : List Task) :
    completeNow (taking s slot tag) 0 (push ts t) = completes s slot tag { b with agenda := ts } := by
  have hquiet : Quiet (countTaking b) := h.quiet
  have hseq : countTaking b = { b with ink := { b.ink with seq := s.ink.seq + 1 } } := by rw [countTaking, h.ink]
  have hnow : (push ts (countTaking b)).clock = s.clock := h.clock
  rw [completeNow, endNow, h.counted, hnow, push_quiet hquiet, hseq]
  rfl

end Sys2Proof.Machine
end

section
/-! ADMIT and LOCATE: how a record is placed at the end of its arrival segment (05 R97, R99). -/

namespace Sys2Proof.Machine

variable {s : State}

/-! ### ADMIT -/

/-- A record that becomes IDLE out of OFFLINE is a fleet availability change (04 R73). -/
theorem putVeh_admitted {v : Nat} {r : Vehicle} (hr : r.state = .idle) (hold : (veh s v).state = .offline) :
    putVeh v r s = availability { s with flt := { s.flt with vehicles := tset {} s.flt.vehicles v r } } := by
  have havail : availChange (veh s v) r = true := by simp [availChange, hr, hold, selectable]
  have hleave : leavesWindow (veh s v) r = false := by simp [leavesWindow, hold]
  simp [putVeh, havail, hleave]

/-- Settles O25: the refusals in order, then the vehicle placed and listened to. -/
theorem admitPlacesTheVehicle : Obligations.AdmitPlacesTheVehicle := by
  unfold Obligations.AdmitPlacesTheVehicle
  intro slot tag v pool seg s hquiet htake
  refine (event_taken (op := .admitVehicle v pool seg) htake rfl).trans (congrArg _ ?_)
  change settle s (takeAdmit (taking s slot tag) v pool seg (countTaking s)) = _
  have hrefused := settle_refuseNow (slot := slot) (tag := tag) hquiet
  have hseg : segAt (countTaking s) seg = segAt s seg := rfl
  rw [takeAdmit, settle_ite, hseg]
  refine ite_congr_iff not_committed_iff (hrefused _) ?_
  cases segAt s seg with
  | none => exact hrefused _
  | some e =>
    dsimp only
    rw [settle_ite, settle_ite, settle_ite, settle_ite]
    refine ite_congr_iff (or_congr Iff.rfl bayDefined_eq_false) (hrefused _) ?_
    refine ite_ctx_congr_iff Iff.rfl (fun _ => hrefused _) fun hstate => ?_
    refine ite_congr_iff Option.isSome_iff_ne_none (hrefused _) (ite_congr_iff Iff.rfl (hrefused _) (congrArg _ ?_))
    have htaken := (((TakenTo.refl hquiet).occupy v e.zone).putVeh v
      (standAt { state := .idle, pool := pool } e.toNode seg)).listens v
    refine (htaken.completes _).trans ?_
    rw [putVeh_admitted (s := occupy v e.zone s) rfl (Classical.not_not.1 hstate), queueStand_eq]
    rfl

/-! ### LOCATE -/

theorem holder_other_iff {z v : Nat} : (zoneRec s z).holder.any (fun h => !decide (h = v)) = true ↔
    (zoneRec s z).holder ≠ none ∧ (zoneRec s z).holder ≠ some v := by
  cases (zoneRec s z).holder <;> simp

/-- Settles O27: the refusals in order, then the record placed, and listened to if it was LOST. -/
theorem locatePlacesTheRecord : Obligations.LocatePlacesTheRecord := by
  unfold Obligations.LocatePlacesTheRecord
  intro slot tag v seg s hquiet htake r
  refine (event_taken (op := .locate v seg) htake rfl).trans (congrArg _ ?_)
  change settle s (takeLocate (taking s slot tag) v seg (countTaking s)) = _
  have hrefused := settle_refuseNow (slot := slot) (tag := tag) hquiet
  have hseg : segAt (countTaking s) seg = segAt s seg := rfl
  rw [takeLocate, settle_ite, hseg]
  refine ite_congr_iff not_committed_iff (hrefused _) ?_
  cases segAt s seg with
  | none => exact hrefused _
  | some e =>
    dsimp only
    rw [settle_ite, settle_ite, settle_ite, settle_ite]
    refine ite_congr_iff Iff.rfl (hrefused _) (ite_congr_iff Iff.rfl (hrefused _) (ite_congr_iff holder_other_iff (hrefused _)
      (ite_congr_iff Iff.rfl (hrefused _) (congrArg _ ?_))))
    have hplaced := ((TakenTo.refl hquiet).occupy v e.zone).putVeh v (located r e.toNode seg)
    exact ((hplaced.listens v).ite (p := r.state = .lost) hplaced).completes _

end Sys2Proof.Machine
end

section
/-! RETIRE and JOG: how a record ends, and how it is sent by hand (05 R98, R102). -/

namespace Sys2Proof.Machine

variable {s t b : State}

/-! ### RETIRE -/

theorem TakenTo.clearLink (h : TakenTo s t b) (v : Nat) : TakenTo s (clearLink v t) (clearLink v b) where
  counted := by rw [h.counted, Machine.clearLink, Machine.clearLink, voidHoist_eq, voidHoist_eq]; rfl
  ink := by rw [Machine.clearLink, voidHoist_eq]; exact h.ink
  clock := by rw [Machine.clearLink, voidHoist_eq]; exact h.clock
  quiet := (clearLink_agenda ..).trans h.quiet

theorem push_push (ts us : List Task) (s : State) : push us (push ts s) = push (ts ++ us) s := by
  simp [push]

/-- Settles O26: the refusals, then the record ended or retiring. -/
theorem retireEndsTheRecord : Obligations.RetireEndsTheRecord := by
  unfold Obligations.RetireEndsTheRecord
  intro slot tag v s hquiet htake r offers emptied
  refine (event_taken (op := .retire v) htake rfl).trans (congrArg _ ?_)
  change settle s (takeRetire (taking s slot tag) v (countTaking s)) = _
  have hrefused := settle_refuseNow (slot := slot) (tag := tag) hquiet
  have hemptied : clearLink v (putVeh v {} s) = emptied := by
    rw [clearLink, putVeh_tsl]
    rfl
  have hends (ts : List Task) : completeNow (taking s slot tag) 0 (push ts (emptyRecord v (countTaking s))) =
      completes s slot tag { emptied with agenda := .revise v :: ts } := by
    rw [emptyRecord, push_push, ← hemptied]
    exact (((TakenTo.refl hquiet).putVeh v {}).clearLink v).completes _
  rw [takeRetire, settle_ite, settle_ite, settle_ite, settle_ite]
  refine ite_congr_iff not_committed_iff (hrefused _) (ite_congr_iff Iff.rfl (hrefused _) (ite_congr_iff Iff.rfl ?_
    (ite_congr_iff Iff.rfl (congrArg _ (hends _)) (hrefused _))))
  rw [retireIdle, apply_ite (completeNow _ 0), ← settle_ite]
  refine congrArg _ (ite_congr_iff Iff.rfl ?_ ?_)
  · exact hends _
  · exact ((TakenTo.refl hquiet).putVeh v _).completes _

/-! ### JOG -/

/-- A walk depends on the map alone. -/
theorem walkFrom_of_map_eq {t : State} (h : t.map = s.map) (g b f : Nat) (inLoop : Bool) (n : Nat) :
    walkFrom t g b f inLoop n = walkFrom s g b f inLoop n := by
  have hnode (n : Nat) : nodeAt t n = nodeAt s n := by simp only [nodeAt, h]
  have hhome (n : Nat) : homeBay t n = homeBay s n := congrArg (·.bind homeOf) (hnode n)
  have hloop (n : Nat) : loopNext t n = loopNext s n := congrArg (Option.map _) (hnode n)
  have hroute (n : Nat) : routeNext t n b = routeNext s n b := by simp only [routeNext, routeAt, h]
  have hto (k : Nat) : segTo t k = segTo s k := by simp only [segTo, segAt, h]
  induction f generalizing inLoop n with
  | zero => rfl
  | succ f ih => simp only [walkFrom, hhome, hloop, hroute, hto, ih]

theorem walk_of_map_eq {t : State} (h : t.map = s.map) (n g : Nat) : walk t n g = walk s n g := by
  simp only [walk, homeBay, nodeAt, h, walkFrom_of_map_eq h]

theorem noRoute_iff {r : Vehicle} {node : Nat} :
    ((limitOf (countTaking s) r).bind (fun m => walk (countTaking s) m node)).isNone = true ↔
      (limitOf s r).bind (fun m => walk s m node) = none := by
  simp only [walk_of_map_eq (countTaking_map s)]
  exact Option.isNone_iff_eq_none

/-- The record that a JOG makes MANUAL, for a slot and towards a node (05 R102). -/
def jogged (slot node : Nat) (r : Vehicle) : Vehicle :=
  { r with state := .manual, park := none, circulating := false,
           jog := some { slot := slot, node := node, holding := decide (r.state = .holding) } }

/-- Settles O28: the refusals in order, then the record MANUAL with its new target. -/
theorem jogSendsTheVehicle : Obligations.JogSendsTheVehicle := by
  unfold Obligations.JogSendsTheVehicle
  intro slot tag v node s hquiet htake r
  refine (event_taken (op := .jog v node) htake rfl).trans (congrArg _ ?_)
  change settle s (takeJog (taking s slot tag) v node (countTaking s)) = _
  have hrefused := settle_refuseNow (slot := slot) (tag := tag) hquiet
  rw [takeJog, settle_ite, settle_ite, settle_ite, settle_ite, settle_ite]
  refine ite_congr_iff Iff.rfl (hrefused _) (ite_congr_iff not_committed_iff (hrefused _) (ite_congr_iff Iff.rfl (hrefused _)
    (ite_congr_iff Iff.rfl (hrefused _) (ite_congr_iff noRoute_iff (hrefused _) (congrArg _ ?_)))))
  have hkeeps : Quiet (keepsDirective s slot tag 11 s) := hquiet
  have hne : jogged slot node r ≠ {} := fun h => by cases congrArg Vehicle.state h
  have htarget := setTarget_modVeh v node (f := jogged slot node) hkeeps hne
  exact congrArg (push (offerOf r.park)) htarget

end Sys2Proof.Machine
end

section
/-! SUPPORT. A vehicle's frame from its reception to the part that acts by its kind (08 R155, R156, R162). -/

namespace Sys2Proof.Machine

variable {s : State} {v : Nat}

/-- A frame of a vehicle whose fields pass is received whole (08 R155). -/
theorem receive_whole {f : InFrame} (hlink : s.tsl.linkHold = false) (hsource : sourceOk (inAddr f) (inKind f) = true)
    (hfields : fieldsOk f = true) : receive f false s = wholeFrame f s := by
  have hheard : unheard false s = false := hlink
  have hwhole : verdictOf f = .whole f := by simp [verdictOf, hsource, hfields]
  rw [receive, hheard, hwhole]
  rfl

/-- A vehicle may send each of the five kinds of frame. -/
theorem sourceOk_vehicle (hv : v < 256) {kind : Nat} (hkind : kind ∈ [0x11, 0x12, 0x13, 0x14, 0x15]) : sourceOk v kind = true := by
  have hrange : 0x11 ≤ kind ∧ kind ≤ 0x15 := by
    simp only [List.mem_cons, List.not_mem_nil, or_false] at hkind
    omega
  simp [sourceOk, hv, hrange]

theorem heldOk_iff {held : Nat} : heldOk held = true ↔ held < 2048 ∨ held = 65535 := by simp [heldOk]

/-- A frame of a vehicle that is neither OFFLINE nor LOST restarts its silence timer and is acted on (08 R156, R166). -/
theorem vehicleFrame_acts (act : State → State) (hoffline : (veh s v).state ≠ .offline) (hlost : (veh s v).state ≠ .lost) :
    vehicleFrame v act s = answered v (act (restartSilence v s)) := by
  unfold vehicleFrame
  split
  · next h => exact absurd h hoffline
  · next h => exact absurd h hlost
  · rfl

/-- The event of a vehicle's frame that is acted on, by what the act does. -/
theorem event_frame {f : InFrame} {act : State → State} {b : State} (hwhole : receive f false s = vehicleFrame v act s)
    (hoffline : (veh s v).state ≠ .offline) (hlost : (veh s v).state ≠ .lost) (hact : act (restartSilence v s) = b) :
    event (receive f false) s = .next (settle s (answered v b)) :=
  event_settle_of (by rw [hwhole, vehicleFrame_acts act hoffline hlost, hact])

/-! ### The tag test -/

theorem linkAt_restartSilence (v : Nat) (s : State) :
    linkAt (restartSilence v s) v = { linkAt s v with silence := some s.clock } :=
  tget_tset_of_ne _ _ _ (fun h => by cases congrArg Link.silence h)

/-- A reply or end with another tag does nothing more; with the cycle's tag it is handed on (08 R162). -/
theorem tagged_other {tag : Nat} (act : State → State) (h : tag ≠ (linkAt s v).tag.toNat) :
    tagged v tag act (restartSilence v s) = restartSilence v s := by
  simp [tagged, tagPasses, linkAt_restartSilence, h]
theorem tagged_passes {tag : Nat} (act : State → State) (h : tag = (linkAt s v).tag.toNat) :
    tagged v tag act (restartSilence v s) = act (replyTaken v (restartSilence v s)) := by
  simp [tagged, tagPasses, linkAt_restartSilence, h]

theorem veh_replyTaken (v : Nat) (s : State) (w : Nat) : veh (replyTaken v s) w = veh s w := by
  unfold replyTaken
  dsimp only
  split <;> rfl

theorem replyTaken_awaiting {h : HoistCycle} (hh : (veh s v).hoist = some h) (hphase : h.phase = .awaiting) :
    let stopped := modLink v (fun l => { l with replyWait := none }) s
    replyTaken v s = { stopped with tsl := { stopped.tsl with hoistQueue := dequeue v stopped.tsl.hoistQueue } } :=
  if_pos (by simp [awaiting, hh, hphase])
theorem replyTaken_not_awaiting (h : ∀ h, (veh s v).hoist = some h → h.phase ≠ .awaiting) :
    replyTaken v s = modLink v (fun l => { l with replyWait := none }) s := by
  refine if_neg ?_
  simpa [awaiting, Option.any_eq_true] using h

end Sys2Proof.Machine
end

section
/-! HOIST_REPLY and the timers of a hoist cycle (05 R108, R109). -/

namespace Sys2Proof.Machine

variable {s : State} {v : Nat} {h : HoistCycle}

theorem untouchedPlace_eq (kind : HoistKind) : untouchedPlace kind = if kind = .load then .source else .vehicle := by
  cases kind <;> rfl
theorem hoisting_eq (x : VState) :
    hoisting x = if x = .toSource then .loading else if x = .toDest then .unloading else x := by
  cases x <;> rfl

theorem hoistReplied_other_phase {ans : Nat} (h : ∀ h, (veh s v).hoist = some h → h.phase ≠ .awaiting) :
    hoistReplied v ans s = s := by
  unfold hoistReplied
  dsimp only
  split
  · rfl
  · next h' hh => exact if_pos (h h' hh)

/-- The reply to a cycle AWAITING, by its answer (05 R108). -/
theorem hoistReplied_awaiting {ans : Nat} (hh : (veh s v).hoist = some h) (hphase : h.phase = .awaiting) :
    hoistReplied v ans s =
      if ans = 1 then
        putVeh v { veh s v with
          state := if (veh s v).state = .toSource then .loading else if (veh s v).state = .toDest then .unloading
            else (veh s v).state
          hoist := some { h with allBusy := false, phase := .accepted, acceptTime := some s.clock } } s
      else if ans = 2 then
        if hoistWaitOver s h.firstSend = true then
          failHoist v h .portNotReady (if h.kind = .load then .source else .vehicle) s
        else putVeh v { veh s v with hoist := some { h with phase := .retryWait, retryFrom := some s.clock } } s
      else failHoist v h .hoistRefused (if h.kind = .load then .source else .vehicle)
        (putVeh v { veh s v with quarantined := true } s) := by
  simp only [hoistReplied, modVeh, hh]
  rw [if_neg (Classical.not_not.2 hphase), hoisting_eq, untouchedPlace_eq]

/-- Settles O43: by the tag, the phase of the cycle and the answer. -/
theorem aHoistReplyMovesTheCycle : Obligations.AHoistReplyMovesTheCycle := by
  unfold Obligations.AHoistReplyMovesTheCycle
  intro v tag ans s hquiet hlink hv hlow hhigh hoffline hlost c stopped
  have hfields : fieldsOk (.hoistReply v tag ans) = true := by simp [fieldsOk, hlow, hhigh]
  have hframe {b : State} (hact : tagged v tag (hoistReplied v ans) c = b) :
      exec (.hoistReply v tag ans false) s = .next (settle s (answered v b)) :=
    event_frame (receive_whole hlink (sourceOk_vehicle (kind := 0x13) hv (by decide)) hfields) hoffline hlost hact
  refine ⟨fun htag => hframe (tagged_other _ htag), fun htag => ⟨fun hother => ?other, fun h hh hphase => ?awaiting⟩⟩
  case other =>
    have hother' : ∀ h, (veh stopped v).hoist = some h → h.phase ≠ .awaiting := hother
    refine hframe ((tagged_passes _ htag).trans ?_)
    rw [replyTaken_not_awaiting (s := c) hother]
    exact hoistReplied_other_phase hother'
  case awaiting =>
    intro t place r
    refine hframe ((tagged_passes _ htag).trans ?_)
    rw [replyTaken_awaiting (s := c) hh hphase]
    exact hoistReplied_awaiting (s := t) hh hphase

/-! ### The timers of a cycle -/

/-- A cycle in RETRY_WAIT whose interval has run has its HOIST handed again under the same tag (05 R108). -/
theorem busyRetryExpires_eq (hh : (veh s v).hoist = some h) : busyRetryExpires v s =
    if h.phase = .retryWait ∧ h.retryFrom.any (fun t => decide (s.map.globals.busyRetry ≤ elapsed s.clock t)) = true then
      queueHoist v (modLink v (fun l => { l with sends := 0 })
        (putVeh v { veh s v with hoist := some { h with phase := .queued, retryFrom := none } } s))
    else s := by
  unfold busyRetryExpires
  dsimp only
  rw [hh]
  dsimp only
  split
  · next t hphase hfrom => simp only [hphase, hfrom, Option.any_some, decide_eq_true_eq, true_and]; rfl
  · next hother =>
    refine (if_neg ?_).symm
    rintro ⟨hphase, hran⟩
    obtain ⟨t, ht, -⟩ := (Option.any_eq_true _ _).1 hran
    exact hother t hphase ht

/-- Settles O49: each expiry by its timer and the phase of the cycle. -/
theorem hoistTimersActInTheirPhase : Obligations.HoistTimersActInTheirPhase := by
  unfold Obligations.HoistTimersActInTheirPhase
  intro v h s hquiet hh r ran limit
  have hover (t : Option Time) : hoistWaitOver s t = ran t limit := by cases t <;> rfl
  refine ⟨?retry, ?busy, ?ended⟩
  case retry =>
    exact event_finish_of (busyRetryExpires_eq hh) (quiet_ite (by simpa [Quiet] using hquiet) hquiet)
  case busy =>
    refine event_settle_of ?_
    rw [busyLimitExpires, hh]
    dsimp only
    rw [hover, untouchedPlace_eq]
  case ended =>
    refine event_settle_of ?_
    rw [endLimitExpires, hh]
    dsimp only
    rw [hover]
    rfl

end Sys2Proof.Machine
end

section
/-! SUPPORT. No operation on orders, records and the link takes time: each leaves the part clock as it was (log 1). -/

namespace Sys2Proof.Machine

variable (s : State)

@[simp] theorem modVeh_clock (v : Nat) (f : Vehicle → Vehicle) : (modVeh v f s).clock = s.clock := putVeh_clock ..
@[simp] theorem modOrder_clock (k : Nat) (f : OrderRec → OrderRec) : (modOrder k f s).clock = s.clock := by
  unfold modOrder; split <;> rfl
@[simp] theorem evaluationEnds_clock : (evaluationEnds s).clock = s.clock := by
  obtain ⟨m, h⟩ := evaluationEnds_eq s; rw [h]
@[simp] theorem dropHoist_clock (v : Nat) : (dropHoist v s).clock = s.clock := by rw [dropHoist, voidHoist_eq]; rfl
@[simp] theorem endCycle_clock (v : Nat) : (endCycle v s).clock = s.clock := by
  unfold endCycle; split <;> simp
@[simp] theorem oweFinal_clock (k : Nat) (f : Final) : (oweFinal k f s).clock = s.clock := rfl
@[simp] theorem endDirective_clock (k : Nat) (c : ResultCode) (r : Option Reason) (d f : Nat) :
    (endDirective k c r d f s).clock = s.clock := by
  unfold endDirective; split <;> rfl
@[simp] theorem freeShelves_clock (k : Nat) : (freeShelves k s).clock = s.clock := by
  unfold freeShelves
  generalize (s.buf.shelves.filter _).map _ = l
  induction l generalizing s with
  | nil => rfl
  | cons st l ih => rw [List.foldl_cons, ih, putShelf_clock]
@[simp] theorem dropCurrent_clock (k v : Nat) : (dropCurrent k v s).clock = s.clock := by
  unfold dropCurrent; split <;> simp
@[simp] theorem dropChained_clock (k v : Nat) : (dropChained k v s).clock = s.clock := by
  unfold dropChained; split <;> simp
@[simp] theorem unlinkOrder_clock (k : Nat) (v : Option Nat) : (unlinkOrder k v s).clock = s.clock := by
  cases v with
  | none => rfl
  | some v => simp [unlinkOrder_some]
@[simp] theorem finishOrder_clock (k : Nat) (c : ResultCode) (r : Option Reason) (p : Place) :
    (finishOrder k c r p s).clock = s.clock := by
  unfold finishOrder; dsimp only; (repeat' split) <;> simp
@[simp] theorem repend_clock (k : Nat) : (repend k s).clock = s.clock := by
  unfold repend; split <;> simp
@[simp] theorem rependChained_clock (v : Nat) : (rependChained v s).clock = s.clock := by
  unfold rependChained; split <;> simp
@[simp] theorem failMove_clock (k : Nat) (r : Reason) (p : Place) : (failMove k r p s).clock = s.clock := by simp [failMove]
@[simp] theorem failJog_clock (v : Nat) (r : Reason) : (failJog v r s).clock = s.clock := by
  unfold failJog; split <;> simp
@[simp] theorem currentOut_clock (v : Nat) (r : Reason) : (currentOut v r s).clock = s.clock := by
  unfold currentOut; dsimp only; (repeat' split) <;> simp
@[simp] theorem outOfService_clock (v : Nat) (r : Reason) : (outOfService v r s).clock = s.clock := by simp [outOfService]
@[simp] theorem enterFaulted_clock (v : Nat) (c : FaultCode) : (enterFaulted v c s).clock = s.clock := by simp [enterFaulted]
@[simp] theorem confirmAuthority_clock (v held : Nat) : (confirmAuthority v held s).clock = s.clock := by
  unfold confirmAuthority; dsimp only; (repeat' split) <;> simp
@[simp] theorem heard_clock (v held : Nat) : (heard v held s).clock = s.clock := confirmAuthority_clock ..
@[simp] theorem noteNode_clock (v n : Nat) : (noteNode v n s).clock = s.clock := modVeh_clock ..

end Sys2Proof.Machine
end

section
/-! PASS, ARRIVE and STATUS: how a movement is placed on the path, and what a vehicle reports of itself (05 R103 to R105,
R111). -/

namespace Sys2Proof.Machine

variable {s : State} {v : Nat}

/-- Tasks asked for by an act that asked for those of another before. -/
theorem push_agenda_eq {t : State} (h : t.agenda = s.agenda) (ts : List Task) :
    push ts t = { t with agenda := s.agenda ++ ts } := by rw [push, h]

theorem event_pass {n held : Nat} {b : State} (hlink : s.tsl.linkHold = false) (hv : v < 256) (hn : n < 2048)
    (hheld : held < 2048 ∨ held = 65535) (hoffline : (veh s v).state ≠ .offline) (hlost : (veh s v).state ≠ .lost)
    (hact : passAt v n (heard v held s) = b) :
    exec (.pass v n held false) s = .next (settle s (answered v b)) :=
  have hfields : fieldsOk (.pass v n held) = true := by simp [fieldsOk, hn, heldOk_iff.2 hheld]
  event_frame (act := fun t => passAt v n (confirmAuthority v held t))
    (receive_whole hlink (sourceOk_vehicle (kind := 0x11) hv (by decide)) hfields) hoffline hlost hact

/-- A movement that cannot be placed (05 R104). -/
theorem unplaced_eq (v : Nat) (s : State) :
    let u := queueStand v (putVeh v { veh s v with
      uncertain := true, pos := (veh s v).pos.map (fun p => { p with measurable := false }) } s)
    unplaced v s = { u with agenda := s.agenda ++ [.revise v] } :=
  push_agenda_eq (by simp) _

/-- The part once a PASS at the path segment of index `i` has handed on the measurement of the record `r` (02 R35). -/
def handsOn (i : Nat) (r : Vehicle) (now : Time) (t : State) : State :=
  match (if i = 0 then measurement r now else none) with
  | some (k, x) => measure k x t
  | none => t

/-- A measurement is handed on of a single step over a marked segment, by a vehicle on the move. -/
theorem handsOn_eq (i : Nat) (r : Vehicle) (now : Time) (t : State) : handsOn i r now t = match r.pos with
    | some p =>
      if i = 0 ∧ p.measurable = true ∧ p.standing = none then measure p.segment (min 65535 (elapsed now p.entry)) t else t
    | none => t := by
  rcases hpos : r.pos with _ | p
  · simp [handsOn, measurement, hpos]
  · by_cases hstep : i = 0 ∧ p.measurable = true ∧ p.standing = none
    · obtain ⟨hi, hmark, hmoves⟩ := hstep
      simp [handsOn, measurement, hpos, hi, hmark, hmoves, Config.timeLimit]
    · have hnone : (if i = 0 then measurement r now else none) = none := by
        simpa [measurement, hpos] using hstep
      rw [handsOn, hnone]
      exact (if_neg hstep).symm

theorem handsOn_agenda (i : Nat) (r : Vehicle) (now : Time) (t : State) : (handsOn i r now t).agenda = t.agenda := by
  unfold handsOn
  split <;> simp

/-- A PASS accepted at the end of the path: there is no segment to move onto (05 R103). -/
theorem acceptPass_last {i : Nat} (h : (veh s v).path.drop (i + 1) = []) : acceptPass v i s = s := by
  simp only [acceptPass, h]

/-- The record after a PASS that moves it onto the path segment `k` (05 R103; 02 R34). -/
def passed (s : State) (r : Vehicle) (k : Nat) (rest : List Nat) : Vehicle :=
  { r with path := k :: rest, pos := some { standing := none, segment := k, entry := s.clock,
                                            measurable := marks s r k (limitOf s r) } }

/-- A PASS accepted before the end of the path. -/
theorem acceptPass_moves {i k : Nat} {rest : List Nat} (h : (veh s v).path.drop (i + 1) = k :: rest) :
    let t := windowNotice v (handsOn i (veh s v) s.clock (putVeh v (passed s (veh s v) k rest) s))
    acceptPass v i s = { t with
      agenda := s.agenda ++ ((leftBehind s t v ((veh s v).path.take (i + 1))).map (fun z => .release v z) ++ [.attempt v]) } := by
  intro t
  have haccept : acceptPass v i s =
      push ((leftBehind s t v ((veh s v).path.take (i + 1))).map (fun z => .release v z) ++ [.attempt v]) t := by
    simp only [acceptPass, h]
    rfl
  rw [haccept]
  exact push_agenda_eq (by simp [t, handsOn_agenda]) _

/-- Settles O41: by the path segment that ends at the node, and whether one follows it. -/
theorem aPassIsPlacedOnThePath : Obligations.APassIsPlacedOnThePath := by
  unfold Obligations.APassIsPlacedOnThePath
  intro v n held s hquiet hlink hv hn hheld hoffline hlost c r
  refine event_pass hlink hv hn hheld hoffline hlost ?_
  have hclock : c.clock = s.clock := by simp [c]
  change (if r.uncertain = true then c else match endsAt c n r.path.dropLast with
    | some i => acceptPass v i c
    | none => if repeatPass c r n = true then c else unplaced v c) = _
  refine ite_ctx_congr_iff Iff.rfl (fun _ => rfl) fun huncertain => ?_
  cases endsAt c n r.path.dropLast with
  | none => exact ite_congr_iff Iff.rfl rfl (unplaced_eq v c)
  | some i =>
    dsimp only
    cases hrest : r.path.drop (i + 1) with
    | nil => exact acceptPass_last hrest
    | cons k rest =>
      rw [acceptPass_moves hrest, handsOn_eq, passed, marks, hclock, Bool.eq_false_iff.2 huncertain]
      rfl

theorem event_arrive {n held : Nat} {b : State} (hlink : s.tsl.linkHold = false) (hv : v < 256) (hn : n < 2048)
    (hheld : held < 2048 ∨ held = 65535) (hoffline : (veh s v).state ≠ .offline) (hlost : (veh s v).state ≠ .lost)
    (hact : arriveAt v n (heard v held s) = b) :
    exec (.arrive v n held false) s = .next (settle s (answered v b)) :=
  have hfields : fieldsOk (.arrive v n held) = true := by simp [fieldsOk, hn, heldOk_iff.2 hheld]
  event_frame (act := fun t => arriveAt v n (confirmAuthority v held t))
    (receive_whole hlink (sourceOk_vehicle (kind := 0x12) hv (by decide)) hfields) hoffline hlost hact

/-- Settles O42: by the path segment that ends at the node, and whether it ends a retiring record. -/
theorem anArriveIsPlacedOnThePath : Obligations.AnArriveIsPlacedOnThePath := by
  unfold Obligations.AnArriveIsPlacedOnThePath
  intro v n held s hquiet hlink hv hn hheld hoffline hlost c r
  refine event_arrive hlink hv hn hheld hoffline hlost ?_
  change (if r.uncertain = true ∨ standingAt r = some n then c else match endsAt c n r.path with
    | some i => placeArrive v n i (r.path.getD i 0) c
    | none => unplaced v c) = _
  refine ite_congr_iff Iff.rfl rfl ?_
  cases endsAt c n r.path with
  | none => exact unplaced_eq v c
  | some i =>
    dsimp only
    unfold placeArrive
    refine ite_congr_iff Iff.rfl rfl ?_
    rw [List.append_assoc]
    exact push_agenda_eq (putVeh_agenda ..) _

/-! ### STATUS -/

theorem event_status {cond code load held : Nat} {b : State} (hlink : s.tsl.linkHold = false) (hv : v < 256)
    (hcond : cond = 0 ∧ code = 0 ∨ cond = 1 ∧ code ≠ 0) (hheld : held < 2048 ∨ held = 65535)
    (hoffline : (veh s v).state ≠ .offline) (hlost : (veh s v).state ≠ .lost)
    (hact : statusFrame v cond code load held (restartSilence v s) = b) :
    exec (.status v cond code load held false) s = .next (settle s (answered v b)) :=
  have hfields : fieldsOk (.status v cond code load held) = true := by simpa [fieldsOk, heldOk_iff.2 hheld] using hcond
  event_frame (act := statusFrame v cond code load held)
    (receive_whole hlink (sourceOk_vehicle (kind := 0x15) hv (by decide)) hfields) hoffline hlost hact

/-- Settles O45: FAULT, then RUN by the state of the record before and after the held limit is compared. -/
theorem aStatusReportsFaultOrRun : Obligations.AStatusReportsFaultOrRun := by
  unfold Obligations.AStatusReportsFaultOrRun
  intro v code load held s hquiet hlink hv hheld hoffline hlost c r
  refine ⟨fun hcode => event_status hlink hv (.inr ⟨rfl, hcode⟩) hheld hoffline hlost rfl,
    event_status hlink hv (.inl ⟨rfl, rfl⟩) hheld hoffline hlost ?run⟩
  refine ite_congr_iff ?stale rfl ?reported
  case stale => exact ⟨fun ⟨_, hbefore, hafter⟩ => ⟨hafter, hbefore⟩, fun ⟨hafter, hbefore⟩ => ⟨rfl, hbefore, hafter⟩⟩
  case reported =>
    unfold statusReported
    dsimp only
    rw [if_neg Nat.zero_ne_one]
    exact ite_congr_iff Iff.rfl (ite_not ..) rfl

end Sys2Proof.Machine
end

section
/-! HOIST_END: the end of a hoist cycle, by its kind and outcome (05 R110; 03 R58, R60). -/

namespace Sys2Proof.Machine

variable {s : State} {v k : Nat} {h : HoistCycle} {o : OrderRec} {id : List Byte}

/-! ### Orders that are not pending -/

/-- A change of a record or of a shelf leaves an order as it is, or tells it of a fleet availability change (04 R72). -/
theorem liveAt_putVeh (v : Nat) (r : Vehicle) (s : State) (k : Nat) :
    liveAt (putVeh v r s) k = liveAt s k ∨ liveAt (putVeh v r s) k = told (liveAt s k) := by
  unfold putVeh
  dsimp only
  split
  · right
    split <;> exact liveAt_clearStale _ k
  · left
    split <;> rfl
theorem liveAt_putShelf (st : Nat) (x : Shelf) (s : State) (k : Nat) :
    liveAt (putShelf st x s) k = liveAt s k ∨ liveAt (putShelf st x s) k = told (liveAt s k) := by
  unfold putShelf
  dsimp only
  split
  · exact .inr (liveAt_clearStale _ k)
  · exact .inl rfl

/-- An order that is not pending is told of nothing (04 R72). -/
theorem orderAt_of_told {t : State} (ho : orderAt s k = some o) (hstate : o.state ≠ .pending)
    (ht : liveAt t k = liveAt s k ∨ liveAt t k = told (liveAt s k)) : orderAt t k = some o := by
  rw [orderAt_eq_some] at ho ⊢
  rcases ht with ht | ht
  · rw [ht, ho]
  · rw [ht, ho]
    simp [told, hstate]

theorem orderAt_modVeh (v : Nat) (f : Vehicle → Vehicle) (ho : orderAt s k = some o) (hstate : o.state ≠ .pending) :
    orderAt (modVeh v f s) k = some o := orderAt_of_told ho hstate (liveAt_putVeh ..)

/-- A drop shelf reserved for an order that is not pending (09 R179). -/
theorem orderAt_reserveDrop (st : Nat) (ho : orderAt s k = some o) (hstate : o.state ≠ .pending) :
    orderAt (reserveDrop k st s) k = some { o with chosen := some st, shelfChosen := true } := by
  rw [reserveDrop, modOrder_of_orderAt (orderAt_of_told ho hstate (liveAt_putShelf ..)), orderAt_putOrder]

/-! ### The source shelf -/

/-- The part once a shelf is no source any more: its RESERVED_PICK is freed, its placed mark cleared (03 R58, 09 R178). -/
def sourceFreed (st : Nat) (s : State) : State := setPlaced st false (freePick st s)

theorem freePick_frame (st : Nat) (s : State) : Tells s (freePick st s) ∧ (freePick st s).map = s.map ∧
    (freePick st s).flt = s.flt ∧ (freePick st s).clock = s.clock := by
  unfold freePick
  split
  · exact ⟨(Tells.refl s).putShelf _ _, putShelf_map .., putShelf_flt .., putShelf_clock ..⟩
  · exact ⟨Tells.refl s, rfl, rfl, rfl⟩

theorem setPlaced_frame (st : Nat) (b : Bool) (s : State) : Tells s (setPlaced st b s) ∧ (setPlaced st b s).map = s.map ∧
    (setPlaced st b s).flt = s.flt ∧ (setPlaced st b s).clock = s.clock := by
  unfold setPlaced
  split
  · exact ⟨(Tells.refl s).putShelf _ _, putShelf_map .., putShelf_flt .., putShelf_clock ..⟩
  · exact ⟨Tells.refl s, rfl, rfl, rfl⟩

theorem sourceFreed_frame (st : Nat) (s : State) : (sourceFreed st s).map = s.map ∧ (sourceFreed st s).flt = s.flt ∧
    (sourceFreed st s).clock = s.clock := by
  obtain ⟨-, hmap, hflt, hclock⟩ := freePick_frame st s
  obtain ⟨-, hmap', hflt', hclock'⟩ := setPlaced_frame st false (freePick st s)
  exact ⟨hmap'.trans hmap, hflt'.trans hflt, hclock'.trans hclock⟩

/-- The order of the cycle keeps its carrier. -/
theorem carrier_sourceFreed {st : Nat} {o1 : OrderRec} (ho : orderAt s k = some o)
    (ho1 : orderAt (sourceFreed st s) k = some o1) : o1.carrier = o.carrier := by
  have hfirst := (freePick_frame st s).1.orders k
  have hsecond := (setPlaced_frame st false (freePick st s)).1.orders k
  have hsame : orderButStale (sourceFreed st s) k = orderButStale s k := hsecond.trans hfirst
  rw [orderButStale, orderButStale, ho, ho1] at hsame
  exact congrArg (fun r => r.bind OrderRec.carrier) hsame

/-! ### LOADED -/

/-- The order's record once its carrier is aboard (03 R58, R67). -/
def aboardRec (now : Time) (o : OrderRec) : OrderRec :=
  { o with state := .carrying, loaded := some now, cancelTooLate := o.cancelTooLate || o.cancelDeferred }

/-- The part once an order's carrier is aboard: the cycle has ended, the vehicle is TO_DEST. -/
def aboard (v k : Nat) (o : OrderRec) (s : State) : State :=
  modVeh v (fun r => { r with state := .toDest }) (putOrder k (aboardRec s.clock o) (endCycle v s))

theorem orderAt_aboard (v k : Nat) (o : OrderRec) (s : State) : orderAt (aboard v k o s) k = some (aboardRec s.clock o) :=
  orderAt_modVeh v _ (orderAt_putOrder ..) (by simp [aboardRec])

theorem dropHoist_map (v : Nat) (s : State) : (dropHoist v s).map = s.map := by rw [dropHoist, voidHoist_eq]; rfl
theorem endCycle_map (v : Nat) (s : State) : (endCycle v s).map = s.map := by
  unfold endCycle
  split
  · rfl
  · exact (dropHoist_map ..).trans (putVeh_map ..)
theorem aboard_map (v k : Nat) (o : OrderRec) (s : State) : (aboard v k o s).map = s.map :=
  (putVeh_map ..).trans (endCycle_map v s)

/-- An order's vehicle goes to the order's destination station or chosen shelf. -/
def carriesOn (v k : Nat) (s : State) : State := match (orderAt s k).bind (destNode s) with
  | some g => setTarget v g s
  | none => s

theorem carriesOn_to {d g : Nat} (ho : orderAt s k = some o) (hd : destStation o = some d) (hg : stationNode s d = some g) :
    carriesOn v k s = setTarget v g s := by
  have hgoal : (orderAt s k).bind (destNode s) = some g := by
    rw [ho, Option.bind_some, destNode, hd, Option.bind_some, hg]
  rw [carriesOn, hgoal]

theorem loadedAgreed_chosen (h : destStation o ≠ none) : loadedAgreed v k o s = carriesOn v k (aboard v k o s) := by
  unfold loadedAgreed
  dsimp only
  split
  · next b hdest hchosen => exact absurd (by rw [destStation, hdest, hchosen]) h
  · rfl

theorem loadedAgreed_unchosen {i : Nat} (hdest : o.dest = .buffer i) (hchosen : o.chosen = none) :
    (∀ st, dropChoice (aboard v k o s) i = some st →
      loadedAgreed v k o s = carriesOn v k (reserveDrop k st (aboard v k o s))) ∧
    (dropChoice (aboard v k o s) i = none → loadedAgreed v k o s = noShelf k v (aboard v k o s)) := by
  unfold loadedAgreed
  dsimp only
  split
  · next b hb _ =>
    obtain rfl : b = i := by rw [hdest] at hb; cases hb; rfl
    constructor
    · intro st hchoice
      split
      · next st' hst =>
        obtain rfl : st' = st := Option.some.inj (hst.symm.trans hchoice)
        rfl
      · next hnone => cases hnone.symm.trans hchoice
    · intro hchoice
      split
      · next st' hst => cases hst.symm.trans hchoice
      · rfl
  · next hother => exact (hother i hdest hchosen).elim

/-- An order with a destination station, or with its shelf chosen, sends the vehicle there. -/
theorem loadedAgreed_station {d g : Nat} (hd : destStation o = some d) (hg : stationNode s d = some g) :
    loadedAgreed v k o s = setTarget v g (aboard v k o s) := by
  have hg' : stationNode (aboard v k o s) d = some g := (stationNode_congr (aboard_map ..) d).trans hg
  rw [loadedAgreed_chosen (by simp [hd])]
  exact carriesOn_to (orderAt_aboard ..) hd hg'

/-- An order for a bay whose shelf was not chosen has it chosen now (09 R181). -/
theorem loadedAgreed_shelf {i st g : Nat} (hdest : o.dest = .buffer i) (hchosen : o.chosen = none)
    (hchoice : dropChoice (aboard v k o s) i = some st) (hg : stationNode s st = some g) :
    loadedAgreed v k o s = setTarget v g (reserveDrop k st (aboard v k o s)) := by
  have hg' : stationNode (reserveDrop k st (aboard v k o s)) st = some g := by
    rw [stationNode_reserveDrop, stationNode_congr (aboard_map ..), hg]
  rw [(loadedAgreed_unchosen hdest hchosen).1 st hchoice]
  refine carriesOn_to (orderAt_reserveDrop st (orderAt_aboard ..) (by simp [aboardRec])) ?_ hg'
  simp [destStation, aboardRec, hdest]

/-- With no shelf choosable the order fails, and the vehicle is HOLDING (09 R181). -/
theorem loadedAgreed_noShelf {i : Nat} (hdest : o.dest = .buffer i) (hchosen : o.chosen = none)
    (hchoice : dropChoice (aboard v k o s) i = none) :
    loadedAgreed v k o s = toHolding v (endCycle v (rependChained v (failMove k .destOccupied .vehicle
      (putOrder k { aboardRec s.clock o with chosen := none, shelfChosen := false } (aboard v k o s))))) := by
  rw [(loadedAgreed_unchosen hdest hchosen).2 hchoice, noShelf, modOrder_of_orderAt (orderAt_aboard ..)]

/-! ### The outcomes -/

theorem hoistEnded_other_phase {out : Nat} (h : ∀ h, (veh s v).hoist = some h → h.phase ≠ .awaiting ∧ h.phase ≠ .accepted) :
    hoistEnded v out id s = s := by
  unfold hoistEnded
  split
  · rfl
  · next h' hh => exact if_pos (h h' hh)

/-- The end of a cycle AWAITING or ACCEPTED, by its kind and outcome (05 R110). -/
theorem hoistEnded_eq {out : Nat} (hh : (veh s v).hoist = some h) (hphase : h.phase = .awaiting ∨ h.phase = .accepted) :
    hoistEnded v out id s =
      if h.kind = .load ∧ out = 1 then hoistLoaded v h id s
      else if h.kind = .load ∧ out = 2 then failHoist v h .pickupEmpty .unknown (setPlaced h.station false s)
      else if h.kind = .unload ∧ out = 3 then hoistUnloaded v h s
      else if h.kind = .unload ∧ out = 4 then failHoist v h .destOccupied .vehicle s
      else hoistJam v s := by
  have hnot : ¬ (h.phase ≠ .awaiting ∧ h.phase ≠ .accepted) := fun ⟨hawaiting, haccepted⟩ =>
    hphase.elim hawaiting haccepted
  simp only [hoistEnded, hh, if_neg hnot]

/-- A LOADED end, by whether the order names another ID than was read (03 R58). -/
theorem hoistLoaded_eq {o1 : OrderRec} (hk : (veh s v).current = some k) (ho : orderAt s k = some o)
    (ho1 : orderAt (sourceFreed h.station s) k = some o1) :
    let read : Option (List Byte) := if id = [] then none else some id
    let noted := putOrder k { o1 with readId := read } (sourceFreed h.station s)
    (o.carrier ≠ none ∧ o.carrier ≠ read → hoistLoaded v h id s =
      toHolding v (endCycle v (rependChained v (failMove k .idMismatch .vehicle noted)))) ∧
    (¬ (o.carrier ≠ none ∧ o.carrier ≠ read) →
      hoistLoaded v h id s = loadedAgreed v k { o1 with readId := read } noted) := by
  intro read noted
  have hveh : (veh (sourceFreed h.station s) v).current = some k := by
    rw [veh_congr (sourceFreed_frame h.station s).2.1, hk]
  have hloaded : hoistLoaded v h id s = if o1.carrier.isSome ∧ o1.carrier ≠ read then
      toHolding v (endCycle v (rependChained v (failMove k .idMismatch .vehicle noted)))
      else loadedAgreed v k { o1 with readId := read } noted := by
    unfold sourceFreed at hveh ho1
    simp only [hoistLoaded, hveh, ho1]
    rfl
  have hmismatch : (o1.carrier.isSome ∧ o1.carrier ≠ read) ↔ (o.carrier ≠ none ∧ o.carrier ≠ read) := by
    rw [carrier_sourceFreed ho ho1, Option.isSome_iff_ne_none]
  rw [hloaded]
  exact ⟨fun hother => if_pos (hmismatch.2 hother), fun hsame => if_neg (mt hmismatch.1 hsame)⟩

theorem event_hoistEnd {tag out : Nat} {b : State} (hlink : s.tsl.linkHold = false) (hv : v < 256) (hlow : 1 ≤ out)
    (hhigh : out ≤ 5) (hid : id.length ≤ 32) (hoffline : (veh s v).state ≠ .offline) (hlost : (veh s v).state ≠ .lost)
    (hact : tagged v tag (hoistEnded v out id) (restartSilence v s) = b) :
    exec (.hoistEnd v tag out id false) s = .next (settle s (answered v b)) :=
  have hfields : fieldsOk (.hoistEnd v tag out id) = true := by simp [fieldsOk, hlow, hhigh, hid]
  event_frame (act := tagged v tag (hoistEnded v out id))
    (receive_whole hlink (sourceOk_vehicle (kind := 0x14) hv (by decide)) hfields) hoffline hlost hact

theorem replyTaken_frame (v : Nat) (s : State) : (replyTaken v s).map = s.map ∧ (replyTaken v s).orders = s.orders ∧
    (replyTaken v s).clock = s.clock := by
  unfold replyTaken
  dsimp only
  split <;> exact ⟨rfl, rfl, rfl⟩

/-- Settles O44: by the tag, the phase of the cycle, and its kind and outcome. -/
theorem aHoistEndDecidesTheOrder : Obligations.AHoistEndDecidesTheOrder := by
  unfold Obligations.AHoistEndDecidesTheOrder
  intro v tag out id s hquiet hlink hv hlow hhigh hid hoffline hlost c answers
  obtain ⟨hmap, horders, hclock⟩ := replyTaken_frame v (restartSilence v s)
  have hveh : veh c v = veh s v := veh_replyTaken v (restartSilence v s) v
  have hanswers {b : State} (hact : tagged v tag (hoistEnded v out id) (restartSilence v s) = b) : answers b :=
    event_hoistEnd hlink hv hlow hhigh hid hoffline hlost hact
  refine ⟨fun htag => hanswers (tagged_other _ htag), fun htag hother => hanswers ((tagged_passes _ htag).trans ?_),
    ?_⟩
  · exact hoistEnded_other_phase (by rwa [hveh])
  intro k h o htag hh hphase hk ho loadedAt read mismatch
  rw [← hveh] at hh hk
  have ho' : orderAt c k = some o := by
    rw [← ho]
    exact orderAt_congr (congrArg (fun t => tget none t k) horders)
  have hends {b : State} (hact : hoistEnded v out id c = b) : answers b := hanswers ((tagged_passes _ htag).trans hact)
  rw [hoistEnded_eq hh hphase] at hends
  refine ⟨fun hkind hout o1 ho1 => ?loaded, fun hkind hout => hends ?unloaded, fun hkind hout => hends ?emptySource,
    fun hkind hout => hends ?blocked, fun hother => hends ?jam⟩
  case loaded =>
    obtain ⟨hmapAt, -, hclockAt⟩ := sourceFreed_frame h.station c
    obtain ⟨hother, hagrees⟩ := hoistLoaded_eq (id := id) hk ho' ho1
    rw [if_pos ⟨hkind, hout⟩] at hends
    refine ⟨fun hmismatch => hends (hother hmismatch), ?_⟩
    intro hmatch o2 b
    let noted := putOrder k { o1 with readId := read } loadedAt
    have hnow : noted.clock = s.clock := (putOrder_clock ..).trans (hclockAt.trans hclock)
    have hrec : aboardRec noted.clock { o1 with readId := read } = o2 := by rw [hnow]; rfl
    have haboard : aboard v k { o1 with readId := read } noted = b := by rw [aboard, hrec]
    have hnode (st : Nat) : stationNode noted st = stationNode s st :=
      stationNode_congr ((putOrder_map ..).trans (hmapAt.trans hmap)) st
    have hagreed {t : State} (ht : loadedAgreed v k { o1 with readId := read } noted = t) : answers t :=
      hends ((hagrees hmatch).trans ht)
    refine ⟨fun d g hd hg => hagreed ?_, fun i hdest hchosen => ⟨fun st g hchoice hg => hagreed ?_, fun hnone => hagreed ?_⟩⟩
    · rw [← haboard]
      exact loadedAgreed_station hd ((hnode d).trans hg)
    · rw [← haboard] at hchoice ⊢
      exact loadedAgreed_shelf hdest hchosen hchoice ((hnode st).trans hg)
    · rw [← haboard] at hnone ⊢
      rw [← hrec]
      exact loadedAgreed_noShelf hdest hchosen hnone
  case unloaded =>
    have hveh' : (veh (setPlaced h.station true c) v).current = some k := by
      rw [veh_congr (setPlaced_frame h.station true c).2.2.1, hk]
    rw [if_neg (by simp [hout]), if_neg (by simp [hout]), if_pos ⟨hkind, hout⟩]
    simp only [hoistUnloaded, hveh']
  case emptySource => rw [if_neg (by simp [hout]), if_pos ⟨hkind, hout⟩]
  case blocked => rw [if_neg (by simp [hout]), if_neg (by simp [hout]), if_neg (by simp [hout]), if_pos ⟨hkind, hout⟩]
  case jam =>
    have hnone : ¬ (h.kind = .load ∧ out = 1) ∧ ¬ (h.kind = .load ∧ out = 2) ∧ ¬ (h.kind = .unload ∧ out = 3) ∧
        ¬ (h.kind = .unload ∧ out = 4) := by grind
    obtain ⟨hloaded, hempty, hunloaded, hblocked⟩ := hnone
    rw [if_neg hloaded, if_neg hempty, if_neg hunloaded, if_neg hblocked]
    simp only [hoistJam, hk]

end Sys2Proof.Machine
end

section
/-! SUPPORT. The target of a record and the park nodes of its bay (05 R106, R114). -/

namespace Sys2Proof.Machine

variable {s : State} {v n g : Nat} {r : Vehicle}

/-! ### Targets -/

/-- A record written and then given a target is written once, with the tasks of the target (05 R106; 06 R121, R127). -/
theorem setTarget_putVeh (v g : Nat) (s : State) (hr : r ≠ {}) : setTarget v g (putVeh v r s) =
    push ((if standingAt r = some g then [.arrival v] else []) ++ [.revise v, .attempt v])
      (putVeh v { r with target := some g } s) := by
  have hread : veh (putVeh v r s) v = r := veh_putVeh s v hr
  have hwrite : modVeh v (fun r => { r with target := some g }) (putVeh v r s) = putVeh v { r with target := some g } s := by
    rw [modVeh, hread]
    exact putVeh_putVeh v s hr rfl rfl rfl rfl
  rw [setTarget, targetTasks, hread, hwrite]

theorem parkAt_eq (v n : Nat) (s : State) : parkAt v n s =
    push ((if standingAt (veh s v) = some n then [.arrival v] else []) ++ [.revise v, .attempt v] ++
        offerUnless n (veh s v).park)
      (putVeh v { veh s v with state := .parking, circulating := false, park := some n, target := some n } s) := by
  have hne : ({ veh s v with state := .parking, circulating := false, park := some n } : Vehicle) ≠ {} :=
    fun h => by cases congrArg Vehicle.state h
  rw [parkAt, setTarget_putVeh v n s hne, push_push]
  rfl

/-- A record that begins to circulate towards a node (05 R115). -/
theorem circulate_eq (h : circulateGoal s (veh s v) = some g) : circulate v s =
    push ((if standingAt (veh s v) = some g then [.arrival v] else []) ++ [.revise v, .attempt v] ++ offerOf (veh s v).park)
      (putVeh v { veh s v with state := .parking, circulating := true, park := none, target := some g } s) := by
  have hne : ({ veh s v with state := .parking, circulating := true, park := none } : Vehicle) ≠ {} :=
    fun h => by cases congrArg Vehicle.state h
  have htarget := setTarget_putVeh v g s hne
  simp only [circulate, h]
  rw [htarget, push_push]
  rfl

end Sys2Proof.Machine
end

section
/-! The arrival handling of a record that stands at its target (05 R102, R106, R107, R115). -/

namespace Sys2Proof.Machine

variable {s : State} {v k st g : Nat} {o : OrderRec}

theorem linkAt_congr {t : State} (h : t.tsl = s.tsl) (v : Nat) : linkAt t v = linkAt s v := by rw [linkAt, linkAt, h]

/-- A record elsewhere than at a target, or UNCERTAIN, makes no arrival (log 18). -/
theorem arrival_elsewhere (h : (veh s v).uncertain = true ∨ standingAt (veh s v) = none ∨ (veh s v).target = none ∨
    standingAt (veh s v) ≠ (veh s v).target) : arrival v s = s := by
  unfold arrival
  dsimp only
  split
  · next n g hn hg =>
    refine if_pos ?_
    rw [hn, hg] at h
    simp only [Option.some.injEq, reduceCtorEq, false_or, ne_eq] at h
    exact h.symm
  · rfl

/-- A hoist cycle begun: QUEUED, every send of it answered BUSY so far, handed under the next tag (05 R107). -/
theorem beginCycle_eq (v : Nat) (kind : HoistKind) (st : Nat) (carrier : Option (List Byte)) (s : State) :
    beginCycle v kind st carrier s =
      queueHoist v (putLink v { linkAt s v with tag := (linkAt s v).tag + 1, sends := 0 }
        (putVeh v { veh s v with hoist := some { kind := kind, station := st, carrier := carrier } } s)) := by
  have hlink : linkAt (modVeh v (fun r => { r with hoist := some { kind := kind, station := st, carrier := carrier } }) s) v =
      linkAt s v := linkAt_congr (putVeh_tsl ..) v
  rw [beginCycle, handHoist, modLink, hlink]
  rfl

section
variable (hstands : standingAt (veh s v) = some g) (htarget : (veh s v).target = some g)
  (hcertain : (veh s v).uncertain = false)
include hstands htarget hcertain

/-! A record that stands at its target without UNCERTAIN, by its state. -/

theorem arrival_other (hstate : (veh s v).state ∉ [VState.toSource, .toDest, .parking, .manual]) : arrival v s = s := by
  simp only [List.mem_cons, List.not_mem_nil, or_false, not_or] at hstate
  obtain ⟨hsource, hdest, hparking, hmanual⟩ := hstate
  simp only [arrival, hstands, htarget, hcertain]
  exact ite_self s

theorem arrival_toSource (hstate : (veh s v).state = .toSource) (hk : (veh s v).current = some k)
    (ho : orderAt s k = some o) (hsource : o.source = .station st) (hassigned : o.state = .assigned)
    (hnode : stationNode s st = some g) :
    arrival v s = beginCycle v .load st o.carrier (putOrder k { o with state := .picking } s) := by
  simp [arrival, hstands, htarget, hcertain, hstate, hk, ho, hsource, hassigned, hnode]

theorem arrival_toDest (hstate : (veh s v).state = .toDest) (hk : (veh s v).current = some k)
    (ho : orderAt s k = some o) (hdest : destStation o = some st) (hcarrying : o.state = .carrying)
    (hnode : stationNode s st = some g) :
    arrival v s = beginCycle v .unload st o.carrier (putOrder k { o with state := .placing } s) := by
  simp [arrival, hstands, htarget, hcertain, hstate, hk, ho, hdest, hcarrying, hnode]

theorem arrival_parking (hstate : (veh s v).state = .parking) : arrival v s =
    if (veh s v).circulating = true then circulatingArrival v g s
    else if (veh s v).park = some g then push [.revise v] (putVeh v { veh s v with state := .idle, target := none } s)
    else s := by
  simp [arrival, hstands, htarget, hcertain, hstate]

theorem arrival_manual {j : Jog} (hstate : (veh s v).state = .manual) (hj : (veh s v).jog = some j) : arrival v s =
    if j.node = g then jogArrives v j s else s := by
  simp [arrival, hstands, htarget, hcertain, hstate, hj]

end

/-- A circulating record at its target: the park node chosen, at hand or elsewhere; with none, the entry node (05 R115). -/
theorem circulatingArrival_park {n : Nat} (hn : parkChoice s v = some n) : circulatingArrival v g s =
    if standingAt (veh s v) = some n then
      push [.revise v] (putVeh v { veh s v with state := .idle, target := none, circulating := false, park := some n } s)
    else parkAt v n s := by
  simp only [circulatingArrival, hn]
theorem circulatingArrival_none {e : Nat} (hn : parkChoice s v = none)
    (he : (bayAt s (veh s v).pool).map (fun b => b.entryNode) = some e) : circulatingArrival v g s =
    if e = g then
      push [.revise v] (putVeh v { veh s v with state := .idle, target := none, circulating := false, park := none } s)
    else setTarget v e s := by
  have he' : entryNode s (veh s v).pool = some e := he
  simp only [circulatingArrival, hn, he']

theorem endDirective_flt (k : Nat) (c : ResultCode) (r : Option Reason) (d f : Nat) (s : State) :
    (endDirective k c r d f s).flt = s.flt := by
  unfold endDirective
  split <;> rfl

/-- A JOG that ends at its node: its slot is owed the result, the record is HOLDING or IDLE (05 R102). -/
theorem jogArrives_eq (hs : Sound s) (j : Jog) :
    let t := putVeh v { veh s v with jog := none } (endDirective j.slot .completed none 0 0 s)
    jogArrives v j s = if j.holding then
        push (.revise v :: offerOf (veh s v).park) (putVeh v { veh s v with
          state := .holding, target := none, circulating := false, park := none, jog := none } t)
      else push [.parking v, .revise v] (putVeh v { veh s v with
          state := .idle, target := none, circulating := false, jog := none } t) := by
  intro t
  have hends : veh (endDirective j.slot .completed none 0 0 s) v = veh s v := veh_congr (endDirective_flt ..) v
  have hsound : Sound (endDirective j.slot .completed none 0 0 s) := endDirective_sound _ _ _ _ _ hs
  have hveh : veh t v = { veh s v with jog := none } := hsound.veh_putVeh v _
  have ht : modVeh v (fun r => { r with jog := none }) (endDirective j.slot .completed none 0 0 s) = t := by
    rw [modVeh, hends]
  rw [jogArrives, ht]
  refine ite_congr_iff Iff.rfl ?_ ?_
  · rw [toHolding, modVeh, hveh]
  · rw [toIdle, modVeh, hveh]

/-- Settles O39: no arrival but at the target and without UNCERTAIN; there by the state of the record. -/
theorem anArrivalActsByTheState : Obligations.AnArrivalActsByTheState := by
  unfold Obligations.AnArrivalActsByTheState
  intro v s hs r
  refine ⟨fun hnone => ?none, ?stands⟩
  case none =>
    by_cases hat : r.uncertain = true ∨ standingAt r = none ∨ r.target = none ∨ standingAt r ≠ r.target
    · exact arrival_elsewhere hat
    · have hstate : r.state ∉ [.toSource, .toDest, .parking, .manual] := by
        rcases hnone with h | h | h | h | h
        · exact absurd (.inl h) hat
        · exact absurd (.inr (.inl h)) hat
        · exact absurd (.inr (.inr (.inl h))) hat
        · exact absurd (.inr (.inr (.inr h))) hat
        · exact h
      simp only [not_or, Bool.not_eq_true, Classical.not_not] at hat
      obtain ⟨hcertain, -, htarget, hsame⟩ := hat
      obtain ⟨g, hg⟩ := Option.ne_none_iff_exists'.1 htarget
      exact arrival_other (hsame.trans hg) hg hcertain hstate
  case stands =>
    intro g hstands htarget hcertain begins
    refine ⟨fun k o st hk ho hnode => ⟨fun hstate hsource hassigned => ?source, fun hstate hdest hcarrying => ?dest⟩,
      fun hstate hcirculating => ⟨fun hpark => ?parks, fun hpark => ?unreserved⟩, fun hstate hcirculating => ?circulates,
      fun hstate j hj => ⟨fun hnode => ?elsewhere, fun hnode => ?jog⟩⟩
    case source =>
      exact (arrival_toSource hstands htarget hcertain hstate hk ho hsource hassigned hnode).trans (beginCycle_eq ..)
    case dest =>
      exact (arrival_toDest hstands htarget hcertain hstate hk ho hdest hcarrying hnode).trans (beginCycle_eq ..)
    case parks =>
      rw [arrival_parking hstands htarget hcertain hstate, if_neg (Bool.eq_false_iff.1 hcirculating), if_pos hpark]
    case unreserved =>
      rw [arrival_parking hstands htarget hcertain hstate, if_neg (Bool.eq_false_iff.1 hcirculating), if_neg hpark]
    case circulates =>
      intro stops
      rw [arrival_parking hstands htarget hcertain hstate, if_pos hcirculating]
      refine ⟨fun hn => ?here, fun n hn hne => ?away, fun e hn he => ?entry⟩
      case here => rw [circulatingArrival_park hn, if_pos hstands]
      case away => rw [circulatingArrival_park hn, if_neg fun h => hne (Option.some.inj (h.symm.trans hstands))]
      case entry =>
        rw [circulatingArrival_none hn he]
        by_cases heg : e = g
        · rw [if_pos heg, if_pos heg]
        · have haway : ¬ standingAt (veh s v) = some e := fun h => heg (Option.some.inj (h.symm.trans hstands))
          rw [if_neg heg, if_neg heg, setTarget, targetTasks, if_neg haway]
          rfl
    case elsewhere => rw [arrival_manual hstands htarget hcertain hstate hj, if_neg hnode]
    case jog =>
      intro t
      rw [arrival_manual hstands htarget hcertain hstate hj, if_pos hnode, jogArrives_eq hs]
      rfl

end Sys2Proof.Machine
end

section
/-! The choice of a park node, the parking rule, circulation, offers and nudges (05 R114 to R116). -/

namespace Sys2Proof.Machine

variable {s : State} {v n g b : Nat}

/-! ### The choice of a park node -/

/-- A park node that another record reserves (05 R114). -/
def reserved (s : State) (v n : Nat) : Prop := ∃ p ∈ s.flt.vehicles, p.1 ≠ v ∧ p.2.park = some n

theorem freeParks_eq (s : State) (v b : Nat) : ∃ free : Nat → Bool,
    freeParks s v b = (parkList s b).filter free ∧ ∀ n, free n = true ↔ ¬ reserved s v n :=
  ⟨_, rfl, fun n => by simp [reserved, fleet]⟩

theorem mem_freeParks : n ∈ freeParks s v b ↔ n ∈ parkList s b ∧ ¬ reserved s v n := by
  obtain ⟨free, heq, hfree⟩ := freeParks_eq s v b
  rw [heq, List.mem_filter, hfree]

/-- The first free park node stands behind reserved ones only. -/
theorem head_freeParks (h : (freeParks s v b).head? = some n) :
    ∃ before after, parkList s b = before ++ n :: after ∧ ∀ x ∈ before, reserved s v x := by
  obtain ⟨free, heq, hfree⟩ := freeParks_eq s v b
  rw [heq, List.head?_filter, List.find?_eq_some_iff_append] at h
  obtain ⟨-, before, after, hlist, hbefore⟩ := h
  refine ⟨before, after, hlist, fun x hx => ?_⟩
  refine Classical.byContradiction fun hnot => ?_
  simpa [(hfree x).2 hnot] using hbefore x hx

theorem freeParks_eq_nil (h : freeParks s v b = []) : ∀ n ∈ parkList s b, reserved s v n := by
  intro n hn
  exact Classical.byContradiction fun hnot => List.not_mem_nil (h ▸ mem_freeParks.2 ⟨hn, hnot⟩)

/-- Where a record stands is chosen if it is free. -/
theorem parkChoice_here (hn : standingAt (veh s v) = some n) (hlist : n ∈ parkList s (veh s v).pool)
    (hfree : ¬ reserved s v n) : parkChoice s v = some n := by
  have hmem : (freeParks s v (veh s v).pool).contains n = true := List.contains_iff_mem.2 (mem_freeParks.2 ⟨hlist, hfree⟩)
  simp only [parkChoice, hn, hmem, if_true]

/-- Elsewhere the first free one is. -/
theorem parkChoice_first (h : ∀ x, standingAt (veh s v) = some x → x ∉ parkList s (veh s v).pool ∨ reserved s v x) :
    parkChoice s v = (freeParks s v (veh s v).pool).head? := by
  unfold parkChoice
  dsimp only
  split
  · next x hx =>
    refine if_neg fun hmem => ?_
    obtain ⟨hlist, hfree⟩ := mem_freeParks.1 (List.contains_iff_mem.1 hmem)
    exact (h x hx).elim (fun hnot => hnot hlist) hfree
  · rfl

/-- Either a record stands at a free park node of its bay, or it stands at none. -/
theorem stands_free_or_not (s : State) (v : Nat) :
    (∃ x, standingAt (veh s v) = some x ∧ x ∈ parkList s (veh s v).pool ∧ ¬ reserved s v x) ∨
    ∀ x, standingAt (veh s v) = some x → x ∉ parkList s (veh s v).pool ∨ reserved s v x := by
  by_cases h : ∃ x, standingAt (veh s v) = some x ∧ x ∈ parkList s (veh s v).pool ∧ ¬ reserved s v x
  · exact .inl h
  · refine .inr fun x hx => Classical.byContradiction fun hnot => ?_
    rw [not_or, Classical.not_not] at hnot
    exact h ⟨x, hx, hnot⟩

theorem parkChoice_some (h : parkChoice s v = some n) : n ∈ parkList s (veh s v).pool ∧ ¬ reserved s v n ∧
    (standingAt (veh s v) ≠ some n →
      (∀ x, standingAt (veh s v) = some x → x ∉ parkList s (veh s v).pool ∨ reserved s v x) ∧
      ∃ before after, parkList s (veh s v).pool = before ++ n :: after ∧ ∀ x ∈ before, reserved s v x) := by
  rcases stands_free_or_not s v with ⟨x, hx, hlist, hfree⟩ | haway
  · obtain rfl : x = n := Option.some.inj ((parkChoice_here hx hlist hfree).symm.trans h)
    exact ⟨hlist, hfree, fun hnot => absurd hx hnot⟩
  · rw [parkChoice_first haway] at h
    obtain ⟨hlist, hfree⟩ := mem_freeParks.1 (List.mem_of_head? h)
    exact ⟨hlist, hfree, fun _ => ⟨haway, head_freeParks h⟩⟩

theorem parkChoice_none (h : parkChoice s v = none) : ∀ n ∈ parkList s (veh s v).pool, reserved s v n := by
  rcases stands_free_or_not s v with ⟨x, hx, hlist, hfree⟩ | haway
  · cases (parkChoice_here hx hlist hfree).symm.trans h
  · rw [parkChoice_first haway, List.head?_eq_none_iff] at h
    exact freeParks_eq_nil h

/-! ### The parking rule and circulation -/

theorem circulateGoal_entry (he : (bayAt s (veh s v).pool).map (fun b => b.entryNode) = some g)
    (haway : standingAt (veh s v) ≠ some g) : circulateGoal s (veh s v) = some g := by
  have he' : entryNode s (veh s v).pool = some g := he
  simp only [circulateGoal, he', if_neg haway]
theorem circulateGoal_on {e k : Nat} (he : (bayAt s (veh s v).pool).map (fun b => b.entryNode) = some e)
    (hat : standingAt (veh s v) = some e) (hk : loopNext s e = some k) (hg : segTo s k = some g) :
    circulateGoal s (veh s v) = some g := by
  have he' : entryNode s (veh s v).pool = some e := he
  simp only [circulateGoal, he', if_pos hat, hk, Option.bind_some, hg]

theorem parkingRule_none (h : (veh s v).state ≠ .idle ∨ (veh s v).current ≠ none ∨ (veh s v).uncertain = true ∨
    (veh s v).retiring = true) : parkingRule v s = s :=
  if_pos (by simpa [Option.isSome_iff_ne_none] using h)

section
variable (hidle : (veh s v).state = .idle) (hfree : (veh s v).current = none) (hcertain : (veh s v).uncertain = false)
  (hstays : (veh s v).retiring = false)
include hidle hfree hcertain hstays

theorem parkingRule_some (hn : parkChoice s v = some n) : parkingRule v s =
    if standingAt (veh s v) = some n then
      push (.revise v :: offerUnless n (veh s v).park) (putVeh v { veh s v with park := some n } s)
    else parkAt v n s := by
  simp [parkingRule, hidle, hfree, hcertain, hstays, hn]
theorem parkingRule_circulates (hn : parkChoice s v = none) : parkingRule v s = circulate v s := by
  simp [parkingRule, hidle, hfree, hcertain, hstays, hn]

end

/-! ### Nudges -/

theorem nudgeable_iff {r : Vehicle} : nudgeable r = true ↔
    r.state = .idle ∧ standingAt r ≠ none ∧ r.uncertain = false ∧ r.retiring = false := by
  simp [nudgeable, Option.isSome_iff_ne_none, and_assoc]

theorem nudge_none (h : (veh s v).state ≠ .idle ∨ standingAt (veh s v) = none ∨ (veh s v).uncertain = true ∨
    (veh s v).retiring = true) : nudge v s = s := by
  have hnot : ¬ nudgeable (veh s v) = true := by
    rw [nudgeable_iff]
    rintro ⟨hidle, hstands, hcertain, hstays⟩
    simp [hidle, hstands, hcertain, hstays] at h
  exact if_pos (by simpa using hnot)

/-- A record nudged where it reserves no park node circulates (05 R116; log 55). -/
theorem nudge_elsewhere (hnudge : nudgeable (veh s v) = true) (hstands : standingAt (veh s v) = some n)
    (hpark : (veh s v).park ≠ some n) : nudge v s = circulate v s := by
  have hnot : ¬ ((veh s v).park.isSome = true ∧ (veh s v).park = standingAt (veh s v)) := fun ⟨_, h⟩ =>
    hpark (h.trans hstands)
  simp only [nudge, hnudge, Bool.not_true, Bool.false_eq_true, if_false, if_neg hnot]

/-- The order of a nudge at an element of a list: what follows it, then what stands before (05 R116). -/
theorem wrapAfter_append {before after : List Nat} (h : n ∉ before) : wrapAfter n (before ++ n :: after) = after ++ before := by
  have hbefore : ∀ x ∈ before, decide (x ≠ n) = true := fun x hx => decide_eq_true fun e => h (e ▸ hx)
  rw [wrapAfter, List.dropWhile_append_of_pos hbefore, List.takeWhile_append_of_pos hbefore]
  simp

/-- A record nudged at its own park node takes the next free one of the list, or circulates. -/
theorem nudge_home {before after : List Nat} (hnudge : nudgeable (veh s v) = true)
    (hstands : standingAt (veh s v) = some n) (hpark : (veh s v).park = some n)
    (hlist : parkList s (veh s v).pool = before ++ n :: after) (hfirst : n ∉ before) :
    (∀ m, (after ++ before).find? (fun x => (freeParks s v (veh s v).pool).contains x) = some m → nudge v s = parkAt v m s) ∧
    ((after ++ before).find? (fun x => (freeParks s v (veh s v).pool).contains x) = none → nudge v s = circulate v s) := by
  have hhome : (veh s v).park.isSome = true ∧ (veh s v).park = standingAt (veh s v) := by simp [hpark, hstands]
  have hwrap : wrapAfter ((veh s v).park.getD 0) (parkList s (veh s v).pool) = after ++ before := by
    rw [hpark, hlist]
    exact wrapAfter_append hfirst
  simp only [nudge, hnudge, Bool.not_true, Bool.false_eq_true, if_false, if_pos hhome, hwrap]
  exact ⟨fun m hfind => by rw [hfind], fun hfind => by rw [hfind]⟩

/-- The next free park node after the record's own, among those of the list. -/
theorem find_free {l xs ys : List Nat} {m : Nat} (hsub : ∀ x ∈ l, x ∈ parkList s b) (hl : l = xs ++ m :: ys)
    (hxs : ∀ x ∈ xs, reserved s v x) (hm : ¬ reserved s v m) :
    l.find? (fun x => (freeParks s v b).contains x) = some m := by
  rw [List.find?_eq_some_iff_append]
  refine ⟨List.contains_iff_mem.2 (mem_freeParks.2 ⟨hsub m (by simp [hl]), hm⟩), xs, ys, hl, fun x hx => ?_⟩
  simp [mem_freeParks, hxs x hx]
theorem find_free_none {l : List Nat} (h : ∀ x ∈ l, reserved s v x) :
    l.find? (fun x => (freeParks s v b).contains x) = none := by
  rw [List.find?_eq_none]
  intro x hx
  simp [mem_freeParks, h x hx]

/-! ### Offers -/

theorem takesOffer_iff {r : Vehicle} : takesOffer s n r = true ↔ r.state = .idle ∧ standingAt r ≠ none ∧ r.park = none ∧
    r.uncertain = false ∧ r.retiring = false ∧ n ∈ parkList s r.pool := by
  simp [takesOffer, Option.isSome_iff_ne_none, and_assoc]

theorem offer_reserved (h : ∃ p ∈ s.flt.vehicles, p.2.park = some n) : offer n s = s :=
  if_pos (by simpa [fleet] using h)

theorem offer_none (h : ∀ p ∈ s.flt.vehicles, ¬ takesOffer s n p.2 = true) : offer n s = s := by
  have hfind : (fleet s).find? (fun p => takesOffer s n p.2) = none := List.find?_eq_none.2 h
  simp only [offer, hfind]
  exact ite_self s

/-- The lowest record that takes an offered park node goes there. -/
theorem offer_taken {before after : Table Vehicle} {r : Vehicle} (hfree : ∀ p ∈ s.flt.vehicles, p.2.park ≠ some n)
    (hlist : s.flt.vehicles = before ++ (v, r) :: after) (hr : takesOffer s n r = true)
    (hbefore : ∀ p ∈ before, ¬ takesOffer s n p.2 = true) : offer n s = parkAt v n s := by
  have hnot : ¬ (fleet s).any (fun p => decide (p.2.park = some n)) = true := by simpa [fleet] using hfree
  have hfind : (fleet s).find? (fun p => takesOffer s n p.2) = some (v, r) :=
    List.find?_eq_some_iff_append.2 ⟨hr, before, after, hlist, fun p hp => by simpa using hbefore p hp⟩
  simp only [offer, if_neg hnot, hfind]

/-- Settles O40: the choice, the parking rule, circulation and nudges of a record; then offers of a park node. -/
theorem parkingChoosesOffersAndNudges : Obligations.ParkingChoosesOffersAndNudges := by
  unfold Obligations.ParkingChoosesOffersAndNudges
  refine ⟨?records, ?offers⟩
  case records =>
    intro v s r taken offers gives tasks
    refine ⟨fun n hn hlist hfree => parkChoice_here hn hlist hfree, fun n hn => parkChoice_some hn, parkChoice_none,
      fun n => parkAt_eq v n s, fun e he => ⟨fun haway => ?entry, fun k g hat hk hg => ?on⟩, parkingRule_none,
      fun hidle hcurrent hcertain hstays => ⟨fun n hn hat => ?parks, fun n hn haway => ?heads, fun hn => ?circulates⟩,
      nudge_none, fun n hidle hstands hcertain hstays => ?nudged⟩
    case entry => exact circulate_eq (circulateGoal_entry he haway)
    case on => exact circulate_eq (circulateGoal_on he hat hk hg)
    case parks => exact (parkingRule_some hidle hcurrent hcertain hstays hn).trans (if_pos hat)
    case heads => exact (parkingRule_some hidle hcurrent hcertain hstays hn).trans (if_neg haway)
    case circulates => exact parkingRule_circulates hidle hcurrent hcertain hstays hn
    case nudged =>
      have hnudge : nudgeable r = true := nudgeable_iff.2 ⟨hidle, by simp [hstands], hcertain, hstays⟩
      refine ⟨fun hpark => nudge_elsewhere hnudge hstands hpark, fun hpark before after hlist hfirst => ?_⟩
      obtain ⟨hnext, hnone⟩ := nudge_home hnudge hstands hpark hlist hfirst
      have hsub : ∀ x ∈ after ++ before, x ∈ parkList s r.pool := fun x hx => by
        rw [hlist]
        rw [List.mem_append] at hx
        rw [List.mem_append, List.mem_cons]
        exact hx.elim (fun hafter => .inr (.inr hafter)) .inl
      exact ⟨fun m xs ys hl hxs hm => hnext m (find_free hsub hl hxs hm), fun h => hnone (find_free_none h)⟩
  case offers =>
    intro n s takes
    have htakes (r : Vehicle) : takesOffer s n r = true ↔ takes r := takesOffer_iff
    refine ⟨fun h => ?stays, fun before v r after hfree hlist hr hbefore => ?taken⟩
    case stays =>
      rcases h with h | h
      · exact offer_reserved h
      · exact offer_none fun p hp => mt (htakes p.2).1 (h p hp)
    case taken =>
      exact offer_taken hfree hlist ((htakes r).2 hr) fun p hp => mt (htakes p.2).1 (hbefore p hp)

end Sys2Proof.Machine
end

section
/-! ZONE_CLOSE and ZONE_OPEN: the refusals, then the branches of the zone's live state (06 R134, R135). -/

namespace Sys2Proof.Machine

variable {s t b : State} {slot : Nat} {tag : BitVec 32} {z : Nat}

theorem not_zoneNamed_iff : (!zoneNamed s z) = true ↔ 1023 < z ∨ zoneAt s z = none := by
  rw [Bool.not_eq_true', zoneNamed, Bool.and_eq_false_iff, decide_eq_false_iff_not, Nat.not_le, zoneDefined,
    Option.isSome_eq_false_iff, Option.isNone_iff_eq_none]

/-! ### What a taken zone directive does -/

theorem TakenTo.putZone (h : TakenTo s t b) (z : Nat) (r : ZoneRec) : TakenTo s (putZone z r t) (putZone z r b) where
  counted := by rw [h.counted]; rfl
  ink := h.ink
  clock := h.clock
  quiet := h.quiet

/-- The end of another live directive, as a ZONE_OPEN ends the ZONE_CLOSE that waits (06 R135). -/
theorem TakenTo.endDirective (h : TakenTo s t b) (k : Nat) (code : ResultCode) (reason : Option Reason) (detail flags : Nat) :
    TakenTo s (endDirective k code reason detail flags t) (endDirective k code reason detail flags b) where
  counted := by
    have hlive : liveAt (countTaking b) k = liveAt b k := rfl
    rw [h.counted, Machine.endDirective, Machine.endDirective, hlive]
    split <;> rfl
  ink := by
    rw [← h.ink, Machine.endDirective]
    split <;> rfl
  clock := (endDirective_clock ..).trans h.clock
  quiet := (endDirective_agenda ..).trans h.quiet

/-- A directive that ends COMPLETED as it is taken and asks the blocks for nothing is one act. -/
theorem TakenTo.settle_completes (h : TakenTo s t b) :
    settle s (completeNow (taking s slot tag) 0 t) = finish s (Machine.completes s slot tag b) := by
  have hquiet : Quiet (Machine.completes s slot tag b) := h.quiet
  have hcounted : countTaking b = { b with ink := { b.ink with seq := s.ink.seq + 1 } } := by rw [countTaking, h.ink]
  have hclock : (countTaking b).clock = s.clock := h.clock
  have hdone : completeNow (taking s slot tag) 0 t = Machine.completes s slot tag b := by
    rw [completeNow, endNow, h.counted, hclock, hcounted]
    rfl
  rw [hdone, settle_quiet hquiet]

/-- Settles O29: the refusals in order, then the close by live state, holder and closing order, and the open by live state. -/
theorem zoneDirectivesCloseAndOpen : Obligations.ZoneDirectivesCloseAndOpen := by
  unfold Obligations.ZoneDirectivesCloseAndOpen
  refine ⟨fun slot tag z s hquiet htake => ?closes, fun slot tag z s hquiet htake => ?opens⟩
  case closes =>
    intro r
    refine event_taken_ends (op := .zoneClose z) htake ?effect
      (quiet_ite hquiet (quiet_ite hquiet (quiet_ite hquiet (quiet_ite hquiet ?quiet))))
    case effect =>
      refine ite_congr_iff not_committed_iff rfl (ite_congr_iff not_zoneNamed_iff rfl ?_)
      have hr : zoneRec (countTaking s) z = r := rfl
      rw [hr]
      cases hlive : r.live with
      | opened => cases hholder : r.holder <;> rfl
      | closing => cases hclosing : r.closingOrder <;> rfl
      | closed => rfl
    case quiet => split <;> exact hquiet
  case opens =>
    intro r
    refine (event_taken (op := .zoneOpen z) htake rfl).trans (congrArg _ ?_)
    change settle s (takeZoneOpen (taking s slot tag) z (countTaking s)) = _
    have hrefused := settle_refuseNow (slot := slot) (tag := tag) hquiet
    have htaken := TakenTo.refl hquiet
    have hr : zoneRec (countTaking s) z = r := rfl
    rw [takeZoneOpen, settle_ite, settle_ite, hr]
    refine ite_congr_iff not_committed_iff (hrefused _) (ite_congr_iff not_zoneNamed_iff (hrefused _) ?_)
    cases hlive : r.live with
    | opened => exact htaken.settle_completes
    | closed => exact congrArg (settle s) ((htaken.putZone z _).completes _)
    | closing =>
      cases hclosing : r.closingOrder with
      | none => exact (htaken.putZone z _).settle_completes
      | some k => exact ((htaken.putZone z _).endDirective k ..).settle_completes

end Sys2Proof.Machine
end

section
/-! Waits and attempts: merges requested and served, the grant that ends a wait, revision, the steps of an attempt, and
re-examination (06 R121 to R130). -/

namespace Sys2Proof.Machine

variable {s : State} {v z : Nat}

/-! ### Canonical tables -/

theorem tset_of_above {α : Type} [DecidableEq α] (d : α) {t : Table α} {i : Nat} (h : tableAbove i t = true) (b : α) :
    tset d t i b = if b = d then t else (i, b) :: t := by
  cases t with
  | nil => rfl
  | cons p t => exact if_pos ((tableAbove_iff _ _).1 h p List.mem_cons_self)

/-- Of two writes of one entry of a canonical table the first does not matter, though it may have emptied the entry. -/
theorem tset_tset_of_wf {α : Type} [DecidableEq α] {d : α} {t : Table α} (hwf : tableWf d t = true) (i : Nat) (a b : α) :
    tset d (tset d t i a) i b = tset d t i b := by
  by_cases ha : a = d
  · subst ha
    induction t with
    | nil => simp only [tset, if_true]
    | cons p t ih =>
      obtain ⟨k, w⟩ := p
      simp only [tableWf, Bool.and_eq_true] at hwf
      obtain ⟨⟨habove, -⟩, hwf⟩ := hwf
      rcases Nat.lt_trichotomy i k with hlt | rfl | hgt
      · simp only [tset, if_pos hlt, if_true]
      · simp only [tset, Nat.lt_irrefl, if_false, if_true, tset_of_above _ habove]
      · simp only [tset, if_neg (Nat.lt_asymm hgt), if_neg (Nat.ne_of_gt hgt), ih hwf]
  · exact tset_tset d t i b ha

/-- A canonical table lists its indexes rising. -/
theorem tkeys_pairwise {α : Type} [DecidableEq α] {d : α} {t : Table α} (hwf : tableWf d t = true) :
    (tkeys t).Pairwise (· < ·) := by
  induction t with
  | nil => exact List.Pairwise.nil
  | cons p t ih =>
    obtain ⟨k, w⟩ := p
    simp only [tableWf, Bool.and_eq_true] at hwf
    obtain ⟨⟨habove, -⟩, hwf⟩ := hwf
    refine List.Pairwise.cons (fun j hj => ?_) (ih hwf)
    obtain ⟨q, hq, rfl⟩ := List.mem_map.1 hj
    exact (tableAbove_iff _ _).1 habove q hq

/-! ### Waits that end -/

/-- A zone's record once a vehicle waits there no longer: the stall flag is that of the waits left (06 R138). -/
def waitEnded (v : Nat) (r : ZoneRec) : ZoneRec :=
  let left := r.waiters.filter (fun w => !decide (w.vehicle = v))
  { r with waiters := left, stall := if left = r.waiters then r.stall else left.any (fun w => w.stalled) }

theorem removeWait_eq (v z : Nat) (s : State) : removeWait v z s = putZone z (waitEnded v (zoneRec s z)) s := rfl

theorem takeZone_eq (hs : Sound s) (v z : Nat) :
    takeZone v z s = putZone z { waitEnded v (zoneRec s z) with holder := some v } s := by
  have hread : zoneRec (putZone z (waitEnded v (zoneRec s z)) s) z = waitEnded v (zoneRec s z) :=
    tget_tset_same _ _ _ hs.zones
  rw [takeZone, removeWait_eq, hread, putZone, putZone_zones, tset_tset_of_wf hs.zones]
  rfl

/-- A grant to a vehicle with a limit and a target, waiting for the zone or not (06 R125). -/
theorem grant_eq {m g : Nat} (hs : Sound s) (hm : limitOf s (veh s v) = some m) (hg : (veh s v).target = some g) (z : Nat) :
    let held := putZone z { waitEnded v (zoneRec s z) with holder := some v } s
    grant v z s = push [.attempt v] (queueGrant v
      (putVeh v { veh s v with path := extendPath held g z 32 m (veh s v).path } held)) := by
  rw [grant, takeZone_eq hs, extendIn_of_limit (s := putZone z _ s) hm hg]
  rfl

/-! ### Merges -/

/-- Those of a list of vehicles that meet the bay condition of a zone (06 R124). -/
def claimants (s : State) (z : Nat) (vs : List Nat) : List Nat := vs.filter (fun c => bayCondition s c z)

/-- The vehicles that wait for a zone, in their order. -/
def waiting (s : State) (z : Nat) : List Nat := (zoneRec s z).waiters.map (fun w => w.vehicle)

theorem awardZone_eq {m w : Nat} {cs : List Nat} {s1 : State} (h : award m cs s = (some w, s1)) (z : Nat) :
    awardZone m z cs s = (some w, grant w z s1) := by
  rw [awardZone, h]

section
variable {e : ZoneEntry} (hz : zoneAt s z = some e) (hkind : e.kind = 2) (hlive : (zoneRec s z).live = .opened)
  (hfree : (zoneRec s z).holder = none)
include hz hkind hlive hfree

/-- A free MERGE zone is awarded among its waiters and the vehicle, if one of them meets the bay condition (06 R124). -/
theorem request_merge (v : Nat) : request v z s =
    let cs := claimants s z (waiting s z ++ [v])
    if cs = [] then appendWaiter v z s
    else if (awardZone e.merge z cs s).1 = some v then (awardZone e.merge z cs s).2
    else appendWaiter v z (awardZone e.merge z cs s).2 := by
  have hmerge : isMerge e = true := decide_eq_true hkind
  simp only [request, hlive, hfree, hz, hmerge, ne_eq, not_true_eq_false, Option.isSome_none, Bool.false_eq_true, or_self,
    if_false, if_true]
  rfl

end

theorem serve_not_free (h : (zoneRec s z).live ≠ .opened ∨ (zoneRec s z).holder ≠ none) (w : Bool) : serve z w s = s :=
  if_pos (h.imp_right fun hheld => .inl (Option.isSome_iff_ne_none.2 hheld))

/-- A service of those who wait finds nobody (06 R129). -/
theorem serve_nobody (h : waiting s z = []) : serve z true s = s :=
  if_pos (.inr (.inr ⟨rfl, List.map_eq_nil_iff.1 h⟩))

/-- A PLAIN zone without waiters grants nobody. -/
theorem serve_plain_nobody {e : ZoneEntry} (hz : zoneAt s z = some e) (hkind : e.kind ≠ 2) (hw : (zoneRec s z).waiters = [])
    (w : Bool) : serve z w s = s := by
  have hplain : isMerge e = false := decide_eq_false hkind
  simp only [serve, hz, hplain, hw, Bool.false_eq_true, if_false, ite_self]

section
variable {e : ZoneEntry} (hz : zoneAt s z = some e) (hlive : (zoneRec s z).live = .opened) (hfree : (zoneRec s z).holder = none)
include hz hlive hfree

/-- A free MERGE zone is awarded among those of its waiters that meet the bay condition, or its arbiter is parked (06 R129). -/
theorem serve_merge (hkind : e.kind = 2) {w : Bool} (hw : waiting s z ≠ [] ∨ w = false) : serve z w s =
    if claimants s z (waiting s z) = [] then parkMerge e.merge s
    else (awardZone e.merge z (claimants s z (waiting s z)) s).2 := by
  have hmerge : isMerge e = true := decide_eq_true hkind
  have hserved : ¬ (w = true ∧ (zoneRec s z).waiters = []) := fun ⟨hwait, hnone⟩ =>
    hw.elim (fun h => h (List.map_eq_nil_iff.2 hnone)) (fun h => Bool.false_ne_true (h.symm.trans hwait))
  simp only [serve, hlive, hfree, hz, hmerge, hserved, ne_eq, not_true_eq_false, Option.isSome_none, Bool.false_eq_true,
    or_self, if_false, if_true]
  rfl

/-- A free PLAIN zone is granted to its first waiter, if that meets the bay condition (06 R129). -/
theorem serve_plain (hkind : e.kind ≠ 2) {c : Wait} {cs : List Wait} (hw : (zoneRec s z).waiters = c :: cs) (w : Bool) :
    serve z w s = if bayCondition s c.vehicle z = true then grant c.vehicle z s else s := by
  have hplain : isMerge e = false := decide_eq_false hkind
  simp only [serve, hlive, hfree, hz, hplain, hw, ne_eq, not_true_eq_false, Option.isSome_none, Bool.false_eq_true,
    reduceCtorEq, and_false, or_self, if_false]

end

/-! ### Conditions of an extension -/

theorem mayExtend_iff : mayExtend s v = true ↔ s.flt.phase = .operating ∧ (veh s v).target ≠ none ∧
    limitOf s (veh s v) ≠ (veh s v).target ∧ (veh s v).uncertain = false ∧ (veh s v).retiring = false := by
  simp [mayExtend, Option.isSome_iff_ne_none, and_assoc]

/-- Whether an attempt makes a step: the conditions of R121, with fewer than 32 segments in the path (06 R121, R123). -/
def mayStep (s : State) (v : Nat) : Prop :=
  mayExtend s v = true ∧ waitingAt s v = none ∧ (veh s v).path.length < 32 ∧
    (zonesAhead s v).length < s.map.globals.lookahead

/-- The zone of the next segment a vehicle would be granted (06 R122). -/
def nextZone (s : State) (v : Nat) : Option Nat := (nextAtLimit s v).bind (segZone s)

theorem nextAtLimit_eq {m g : Nat} (hm : limitOf s (veh s v) = some m) (hg : (veh s v).target = some g) :
    nextAtLimit s v = nextSegment s m g := by
  simp only [nextAtLimit, hm, hg]

/-! ### Revisions -/

theorem revise_not_waiting (h : waitingAt s v = none) : revise v s = s := by rw [revise, h]

/-- A wait stays while the vehicle may extend into the zone; else it is withdrawn and the zone served (06 R127). -/
theorem revise_waiting (h : waitingAt s v = some z) : revise v s =
    if mayExtend s v = true ∧ nextZone s v = some z then s
    else push (.serve z true :: (if mayExtend s v then [.attempt v] else [])) (removeWait v z s) := by
  rw [revise, h]
  exact ite_congr_iff (by rw [nextZone, Bool.and_eq_true, decide_eq_true_eq]) rfl rfl

/-! ### Steps of an attempt -/

theorem mayStep_iff : (mayExtend s v && (waitingAt s v).isNone && decide ((zonesAhead s v).length < s.map.globals.lookahead) &&
    decide ((veh s v).path.length < Config.pathLimit)) = true ↔ mayStep s v := by
  simp only [Bool.and_eq_true, Option.isNone_iff_eq_none, decide_eq_true_eq, and_assoc]
  exact and_congr_right' (and_congr_right' and_comm)

theorem attempt_ends (h : ¬ mayStep s v ∨ nextZone s v = none) : attempt v s = s := by
  unfold attempt
  dsimp only
  split
  · next hstep =>
    have hnone := h.resolve_left fun hstops => hstops (mayStep_iff.1 hstep)
    rw [nextZone] at hnone
    rw [hnone]
  · rfl

/-- A step goes by the zone of the next segment: requested, ended in, or, at the limit, continued (06 R122, R123). -/
theorem attempt_steps (h : mayStep s v) (hz : nextZone s v = some z) : attempt v s =
    if (zoneRec s z).holder = some v then
      if (limitSegment (veh s v)).bind (segZone s) = some z then
        if (veh (extendIn v z s) v).path = (veh s v).path then extendIn v z s else push [.attempt v] (extendIn v z s)
      else s
    else request v z s := by
  rw [nextZone] at hz
  simp only [attempt, if_pos (mayStep_iff.2 h), hz]

/-- An extension into a zone in which the next segment lies adds to a path that is not full (06 R123). -/
theorem extendPath_ne {m g k : Nat} {p : List Nat} (hk : nextSegment s m g = some k) (hz : segZone s k = some z)
    (hp : p.length < 32) : extendPath s g z 32 m p ≠ p := by
  intro hsame
  obtain ⟨t, ht⟩ := segTo_of_segZone hz
  have hlonger : (p ++ [k]).length = p.length + 1 := List.length_append
  obtain ⟨q, n, hq, -⟩ := extendPath_trail (s := s) (g := g) (z := z) (m := t) (p := p ++ [k]) 31 (by omega) (by omega)
  have hpath : p = p ++ [k] ++ q := hsame.symm.trans ((extendPath_goes_on 31 hk hz ht hp).trans hq)
  have hlen := congrArg List.length hpath
  rw [List.length_append] at hlen
  omega

/-- In the vehicle's own zone at its limit the path is continued, by a segment at least (06 R123). -/
theorem attempt_continues {m g : Nat} (hs : Sound s) (h : mayStep s v) (hz : nextZone s v = some z)
    (hheld : (zoneRec s z).holder = some v) (hin : (limitSegment (veh s v)).bind (segZone s) = some z)
    (hm : limitOf s (veh s v) = some m) (hg : (veh s v).target = some g) :
    let p := extendPath s g z 32 m (veh s v).path
    attempt v s = push [.attempt v] (queueGrant v (putVeh v { veh s v with path := p } s)) ∧ p ≠ (veh s v).path := by
  have ⟨_, _, hroom, _⟩ := h
  obtain ⟨k, hk, hkz⟩ := Option.bind_eq_some_iff.1 hz
  rw [nextAtLimit_eq hm hg] at hk
  have hlonger := extendPath_ne hk hkz hroom
  have hpath : (veh (extendIn v z s) v).path = extendPath s g z 32 m (veh s v).path := by
    rw [extendIn_of_limit hm hg, veh_congr (queueGrant_flt ..), hs.veh_putVeh]
  refine ⟨?_, hlonger⟩
  rw [attempt_steps h hz, if_pos hheld, if_pos hin, hpath, if_neg hlonger, extendIn_of_limit hm hg]

/-! ### Re-examination -/

/-- The zones of a bay that are free and waited for, rising (06 R130). -/
def awaitedZones (s : State) (b : Nat) : List Nat :=
  (s.zones.filter (fun p => decide (zoneBay s p.1 = some b) && decide (p.2.live = .opened) && p.2.holder.isNone &&
    !decide (p.2.waiters = []))).map (fun p => p.1)

theorem reexamine_eq (b : Nat) (s : State) : reexamine b s = push ((awaitedZones s b).map (fun z => .serve z true)) s := by
  rw [awaitedZones, List.map_map]
  rfl

theorem awaitedZones_rising (hs : Sound s) (b : Nat) : (awaitedZones s b).Pairwise (· < ·) :=
  (tkeys_pairwise hs.zones).sublist (List.filter_sublist.map _)

theorem mem_awaitedZones (hs : Sound s) {b : Nat} : z ∈ awaitedZones s b ↔
    zoneBay s z = some b ∧ (zoneRec s z).live = .opened ∧ (zoneRec s z).holder = none ∧ (zoneRec s z).waiters ≠ [] := by
  constructor
  · intro h
    obtain ⟨⟨y, r⟩, hp, rfl⟩ := List.mem_map.1 h
    obtain ⟨hmem, hcond⟩ := List.mem_filter.1 hp
    have hr : zoneRec s y = r := tget_of_mem hs.zones hmem
    simpa [hr, and_assoc] using hcond
  · intro h
    have ⟨_, _, _, hsome⟩ := h
    have hne : zoneRec s z ≠ {} := fun hempty => hsome (by rw [hempty])
    exact List.mem_map.2 ⟨_, List.mem_filter.2 ⟨mem_of_tget_ne hne, by simpa [zoneRec, and_assoc] using h⟩, rfl⟩

/-- Settles O55: a merge requested and served, a grant that ends a wait, a zone served, a wait revised and an attempt by the
next segment's zone, the zones re-examined. -/
theorem waitsAreServedRevisedAndAttempted : Obligations.WaitsAreServedRevisedAndAttempted := by
  unfold Obligations.WaitsAreServedRevisedAndAttempted
  refine ⟨fun v z e s hz hkind hlive hfree => ?merges, fun v z s hs m g hm hg => grant_eq hs hm hg z,
    fun z w e s hz => ⟨fun h => serve_not_free h w, fun hlive hfree hkind => ?plain⟩, fun v s => ?attempts,
    fun b s hs => ⟨awaitedZones s b, reexamine_eq b s, awaitedZones_rising hs b, fun z => mem_awaitedZones hs⟩⟩
  case merges =>
    intro meets cs waits
    have hmeets : (fun c => bayCondition s c z) = meets := funext (bayCondition_of_zoneAt hz)
    have hclaims (vs : List Nat) : claimants s z vs = vs.filter meets := congrArg (vs.filter ·) hmeets
    have hcs : claimants s z (waiting s z ++ [v]) = cs := hclaims _
    have hwaits : claimants s z (waiting s z) = waits.filter meets := hclaims _
    have hrequest := request_merge hz hkind hlive hfree v
    rw [hcs] at hrequest
    refine ⟨fun hnone => hrequest.trans (if_pos hnone), fun w s1 hsome haward => ?requested,
      fun asked => ⟨fun hnobody hasked => ?nobody, fun hw => ?served⟩⟩
    case requested =>
      refine (hrequest.trans (if_neg hsome)).trans ?_
      rw [awardZone_eq haward]
      exact ite_ctx_congr_iff Option.some_inj (fun hwon => by rw [hwon]) fun _ => rfl
    case nobody => rw [hasked, serve_nobody hnobody]
    case served =>
      have hserve := serve_merge hz hlive hfree hkind hw
      rw [hwaits] at hserve
      refine ⟨fun hnone => hserve.trans (if_pos hnone), fun w s1 hsome haward => (hserve.trans (if_neg hsome)).trans ?_⟩
      rw [awardZone_eq haward]
  case plain =>
    refine ⟨fun hw => serve_plain_nobody hz hkind hw w, fun c cs hw => ?_⟩
    rw [serve_plain hz hlive hfree hkind hw, bayCondition_of_zoneAt hz]
    exact ite_congr_iff (by rw [Bool.or_eq_true, decide_eq_true_eq]) rfl rfl
  case attempts =>
    intro r extends_ next
    have hextends : mayExtend s v = true ↔ extends_ := mayExtend_iff
    refine ⟨revise_not_waiting, fun z hwait => ?revised, ?steps⟩
    case revised =>
      intro w left withdrawn
      have hrevise := revise_waiting hwait
      refine ⟨fun he hnext => hrevise.trans (if_pos ⟨hextends.2 he, hnext⟩), fun he hnext => ?moved, fun he => ?ended⟩
      case moved =>
        rw [hrevise, if_neg fun hstays => hnext hstays.2, if_pos (hextends.2 he)]
        rfl
      case ended =>
        rw [hrevise, if_neg fun hstays => he (hextends.1 hstays.1), if_neg (mt hextends.1 he)]
        rfl
    case steps =>
      intro steps
      have hsteps : mayStep s v ↔ steps := and_congr_left' hextends
      refine ⟨fun h => attempt_ends (h.imp_left (mt hsteps.1)), fun hstep z hnext => ?_⟩
      have hattempt := attempt_steps (hsteps.2 hstep) hnext
      exact ⟨fun hother => hattempt.trans (if_neg hother),
        fun hheld haway => (hattempt.trans (if_pos hheld)).trans (if_neg haway),
        fun hheld hin hs m g hm hg => attempt_continues hs (hsteps.2 hstep) hnext hheld hin hm hg⟩

end Sys2Proof.Machine
end

section
/-! Merge awards: the claimant an award goes to, and the favour and convoy it leaves (07 R143 to R147). -/

namespace Sys2Proof.Machine

variable {s : State} {m : Nat} {a : Arbiter}

/-! ### The arbiter after an award -/

/-- The convoy starts anew at an award to the other branch, or when it was INACTIVE (07 R145). -/
theorem awarded_eq (now : Time) (br : Branch) (a : Arbiter) :
    awarded now br a = if br ≠ a.favour ∨ a.convoy = .inactive then startConvoy now { a with favour := br } else a := by
  unfold awarded
  by_cases hbr : br = a.favour
  · subst hbr
    simp
  · simp [hbr]

theorem award_eq_of_winner (ha : arbiterAt s m = some a) {cs : List Nat} {w : Nat} (hw : winner s m a cs = some w) :
    award m cs s = (some w, putArbiter m (some (awarded s.clock (branchOf s m w) a)) s) := by
  simp only [award, ha, hw]

/-! ### The winner -/

/-- The one hot claimant wins, whatever the favour and the convoy (07 R146; R147, case 1). -/
theorem winner_of_hot_alone {cs : List Nat} {w : Nat} (h : cs.filter (hot s) = [w]) : winner s m a cs = some w := by
  match cs with
  | [] => cases h
  | [c] =>
    have hw : w ∈ [c].filter (hot s) := h ▸ List.mem_singleton_self w
    exact congrArg some (List.mem_singleton.1 (List.mem_filter.1 hw).1).symm
  | _ :: _ :: _ => simp only [winner, h]

/-- Without a hot override the claimant whose branch has the turn wins: the favoured branch, or the other one against
an EXPIRED convoy (07 R147, cases 2 and 3). -/
theorem winner_of_turn {x y : Nat} (hhot : hot s x = hot s y)
    (hx : branchOf s m x = a.favour ↔ a.convoy ≠ .expired) (hy : branchOf s m y = a.favour ↔ a.convoy = .expired) :
    winner s m a [x, y] = some x ∧ winner s m a [y, x] = some x := by
  by_cases hexpired : a.convoy = .expired
  · have hother : branchOf s m x ≠ a.favour := fun h => hx.1 h hexpired
    have hfavoured : branchOf s m y = a.favour := hy.2 hexpired
    cases hhoty : hot s y <;> simp [winner, hhot, hhoty, hexpired, hother, hfavoured]
  · have hfavoured : branchOf s m x = a.favour := hx.2 hexpired
    have hother : branchOf s m y ≠ a.favour := mt hy.1 hexpired
    cases hhoty : hot s y <;> simp [winner, hhot, hhoty, hexpired, hother, hfavoured]

theorem hot_eq_of_neither_alone {x y : Nat} (hx : ¬(hot s x = true ∧ hot s y = false))
    (hy : ¬(hot s y = true ∧ hot s x = false)) : hot s x = hot s y := by
  cases h : hot s x <;> simp_all

/-- With a claimant on each branch, in either order, the first of R147's cases that holds decides. -/
theorem winner_of_both_branches {c d : Nat} (hc : branchOf s m c = .a) (hd : branchOf s m d = .b) :
    let w :=
      if hot s c = true ∧ hot s d = false then c
      else if hot s d = true ∧ hot s c = false then d
      else if (a.favour = .a ∧ a.convoy ≠ .expired) ∨ (a.favour = .b ∧ a.convoy = .expired) then c
      else d
    winner s m a [c, d] = some w ∧ winner s m a [d, c] = some w := by
  dsimp only
  by_cases hotc : hot s c = true ∧ hot s d = false
  · rw [if_pos hotc]
    constructor <;> exact winner_of_hot_alone (by simp [hotc])
  rw [if_neg hotc]
  by_cases hotd : hot s d = true ∧ hot s c = false
  · rw [if_pos hotd]
    constructor <;> exact winner_of_hot_alone (by simp [hotd])
  rw [if_neg hotd]
  have hhot : hot s c = hot s d := hot_eq_of_neither_alone hotc hotd
  by_cases hturn : (a.favour = .a ∧ a.convoy ≠ .expired) ∨ (a.favour = .b ∧ a.convoy = .expired)
  · rw [if_pos hturn]
    apply winner_of_turn hhot <;> rcases hturn with ⟨hf, he⟩ | ⟨hf, he⟩ <;> simp [hc, hd, hf, he]
  · rw [if_neg hturn]
    refine (winner_of_turn hhot.symm ?_ ?_).symm <;> cases hf : a.favour <;> simp_all

/-- Settles O56: the award of a lone claimant, and of two by R147's cases. -/
theorem anAwardFollowsHotThenConvoyThenFavour : Obligations.AnAwardFollowsHotThenConvoyThenFavour := by
  unfold Obligations.AnAwardFollowsHotThenConvoyThenFavour
  intro m c d a s ha after
  have haward {cs : List Nat} {w : Nat} (hw : winner s m a cs = some w) : award m cs s = (some w, after w) := by
    rw [award_eq_of_winner ha hw, awarded_eq]
    rfl
  exact ⟨haward rfl, fun hc hd => (winner_of_both_branches hc hd).imp haward haward⟩

end Sys2Proof.Machine
end

section
/-! The transmitter: the queue it takes from, and what the frame that it has sent leaves (08 R157 to R161). -/

namespace Sys2Proof.Machine

variable {s : State} {v : Nat}

/-! ### TRANSMIT_START -/

theorem transmitTake_idle (h : s.tsl.tx ≠ none ∨ s.tsl.linkHold = true ∨ (s.tsl.grantQueue = [] ∧ s.tsl.hoistQueue = [])) :
    transmitTake s = s := by
  unfold transmitTake
  rcases h with hbusy | hlink | ⟨hgrants, hhoists⟩
  · exact if_pos (.inl (Option.isSome_iff_ne_none.2 hbusy))
  · exact if_pos (.inr hlink)
  · simp [hgrants, hhoists, takeHoist]

section
variable (htx : s.tsl.tx = none) (hlink : s.tsl.linkHold = false)
include htx hlink

/-- The GRANT queue's turn: the HOIST queue is empty or was taken from last (08 R160). -/
theorem transmitTake_grant {p : Nat × Bool} {q : List (Nat × Bool)} (hgrants : s.tsl.grantQueue = p :: q)
    (hturn : s.tsl.hoistQueue = [] ∨ s.tsl.mark = .hoist) : transmitTake s = takeGrant s := by
  have hidle : ¬ (s.tsl.tx.isSome = true ∨ s.tsl.linkHold = true) := by simp [htx, hlink]
  rw [transmitTake, if_neg hidle, hgrants]
  rcases hhoists : s.tsl.hoistQueue with _ | ⟨e, r⟩
  · rfl
  · have hmark : s.tsl.mark = .hoist := hturn.resolve_left (by simp [hhoists])
    simp [hmark]

/-- The HOIST queue's turn: the GRANT queue is empty or was taken from last (08 R160). -/
theorem transmitTake_hoist {p : Nat × HoistEntry} {q : List (Nat × HoistEntry)} (hhoists : s.tsl.hoistQueue = p :: q)
    (hturn : s.tsl.grantQueue = [] ∨ s.tsl.mark = .grant) : transmitTake s = takeHoist s := by
  have hidle : ¬ (s.tsl.tx.isSome = true ∨ s.tsl.linkHold = true) := by simp [htx, hlink]
  rw [transmitTake, if_neg hidle, hhoists]
  rcases hgrants : s.tsl.grantQueue with _ | ⟨e, r⟩
  · rfl
  · have hmark : s.tsl.mark = .grant := hturn.resolve_left (by simp [hgrants])
    simp [hmark]

end

theorem transmitTake_agenda (s : State) : (transmitTake s).agenda = s.agenda := by
  unfold transmitTake takeGrant takeHoist
  (repeat' split) <;> simp

theorem authorityFrame_eq (s : State) (v : Nat) (isGrant : Bool) : authorityFrame s v isGrant =
    if isGrant = false then some .stand
    else if (veh s v).path = [] then none
    else (limitOf s (veh s v)).map (fun n => .grant (veh s v).path n) := by
  cases isGrant <;> rfl

/-- Settles O52: by the queue whose turn it is. -/
theorem theTransmitterAlternates : Obligations.TheTransmitterAlternates := by
  unfold Obligations.TheTransmitterAlternates
  intro s hquiet
  have hevent {b : State} (h : transmitTake s = b) : exec .transmitStart s = .next (finish s b) :=
    event_finish_of h (by rw [← h]; exact (transmitTake_agenda s).trans hquiet)
  refine ⟨fun h => hevent (transmitTake_idle h), fun htx hlink =>
    ⟨fun v isGrant q hgrants hturn => ?grant, fun v e q hhoists hturn => ?hoist⟩⟩
  case grant =>
    intro r frame
    refine hevent ((transmitTake_grant htx hlink hgrants hturn).trans ?_)
    rw [takeGrant, hgrants]
    dsimp only
    rw [authorityFrame_eq]
  case hoist =>
    refine hevent ((transmitTake_hoist htx hlink hhoists hturn).trans ?_)
    rw [takeHoist, hhoists]

/-! ### A frame sent -/

/-- What a cycle is told of a send, by its phase (05 R107, 08 R161; log 16). -/
theorem cycleTold_eq (now : Time) (h : HoistCycle) : cycleTold now h =
    if h.phase = .queued ∨ h.phase = .awaiting then
      { h with phase := .awaiting, firstSend := some (h.firstSend.getD now), allBusy := h.allBusy && decide (h.phase = .queued) }
    else { h with allBusy := false } := by
  obtain ⟨_, _, _, phase, firstSend, _, _, _, _⟩ := h
  cases phase <;> cases firstSend <;> simp [cycleTold]

/-- Settles O53: by the frame in transmission. -/
theorem aSentFrameIsRecorded : Obligations.ASentFrameIsRecorded := by
  unfold Obligations.ASentFrameIsRecorded
  intro v f noWait s hquiet htx l left
  have hleft (l1 : Link) : Quiet (left l1) := hquiet
  refine ⟨?grant, ?stand, ?hoist⟩
  case grant =>
    rintro path limit rfl
    exact event_finish_of (by rw [grantLeaves, htx]; rfl) (hleft _)
  case stand =>
    rintro rfl
    exact event_finish_of (by rw [standLeaves, htx]; rfl) (hleft _)
  case hoist =>
    rintro e rfl
    refine ⟨?ended, ?another, ?waits⟩
    case ended =>
      rintro rfl hcycle
      exact event_finish_of (by rw [hoistLeaves, htx]; simp only [hcycle]; rfl) (hleft _)
    case another =>
      rintro rfl hcycle
      have hsome : (veh s v).hoist.isSome = true := Option.isSome_iff_ne_none.2 hcycle
      exact event_finish_of (by rw [hoistLeaves, htx]; simp only [hsome]; rfl) hquiet
    case waits =>
      rintro rfl
      refine event_finish_of ?_ ((modVeh_agenda ..).trans (hleft _))
      rw [hoistLeaves, htx, ← funext (cycleTold_eq s.clock)]
      rfl

end Sys2Proof.Machine
end

section
/-! The confirmation of an authority by the limit that a vehicle reports as held (08 R164). -/

namespace Sys2Proof.Machine

variable {s : State} {v : Nat}

theorem queued_iff {α : Type} {q : List (Nat × α)} : queued v q = true ↔ ∃ p ∈ q, p.1 = v := by simp [queued]

theorem authorityOnWay_eq (s : State) (v : Nat) : authorityOnWay s v = match s.tsl.tx with
    | some t => match t.frame with
      | .hoist _ => false
      | _ => decide (t.vehicle = v)
    | none => false := by
  unfold authorityOnWay
  rcases s.tsl.tx with _ | ⟨w, f, b⟩
  · rfl
  · cases f <;> simp

/-- Settles O48: the two spell the same conditions in the same order. -/
theorem aHeldLimitConfirmsTheAuthority : Obligations.AHeldLimitConfirmsTheAuthority := by
  unfold Obligations.AHeldLimitConfirmsTheAuthority
  intro v held s l onWay early
  have hsilent : (l.lastSent ≠ .grant ∨ queued v s.tsl.grantQueue = true ∨ authorityOnWay s v = true) ↔
      (l.lastSent ≠ .grant ∨ (∃ p ∈ s.tsl.grantQueue, p.1 = v) ∨ onWay = true) := by
    have hway : authorityOnWay s v = onWay := authorityOnWay_eq s v
    rw [queued_iff, hway]
  have hearly : (match l.grantTime with
      | some t => decide (elapsed s.clock t < s.map.globals.replyWindow)
      | none => false) = early := by
    simp only [early]
    cases l.grantTime <;> rfl
  unfold confirmAuthority
  dsimp only
  refine ite_congr_iff hsilent rfl ?_
  refine ite_congr_iff Iff.rfl rfl ?_
  exact ite_congr_iff (iff_of_eq (congrArg (· = true) hearly)) rfl rfl

end Sys2Proof.Machine
end

section
/-! Frames that are not taken: unheard, discarded, or from an OFFLINE or LOST record (05 R113; 08 R155, R156, R168). -/

namespace Sys2Proof.Machine

variable {s : State} {v : Nat}

/-! ### A frame and its row -/

/-- The row by which a frame whose fields are known is received (08 R154). -/
def rowOf (early : Bool) : InFrame → Instr
  | .pass a n h => .pass a n h early
  | .arrive a n h => .arrive a n h early
  | .hoistReply a tag ans => .hoistReply a tag ans early
  | .hoistEnd a tag out id => .hoistEnd a tag out id early
  | .status a cond code load h => .status a cond code load h early
  | .scan a q first last rows => .scan a q first last rows early

theorem exec_rowOf (early : Bool) (f : InFrame) (s : State) : exec (rowOf early f) s = event (receive f early) s := by
  cases f <;> rfl

theorem exec_rowOf_unheard {early : Bool} (hquiet : Quiet s) (h : early = true ∨ s.tsl.linkHold = true) (f : InFrame) :
    exec (rowOf early f) s = .next (finish s s) := by
  rw [exec_rowOf]
  exact event_finish_of (if_pos (by simpa [unheard] using h)) hquiet

theorem inKind_lt (f : InFrame) : inKind f < 256 := by cases f <;> simp [inKind]

theorem frameDetail_eq (addr reason : Nat) {kind : Nat} (h : kind < 256) :
    frameDetail addr kind reason = addr % 512 + kind * 2 ^ 16 + reason * 2 ^ 24 := by
  simp [frameDetail, Nat.mod_eq_of_lt h]

section
variable {f : InFrame} (hquiet : Quiet s) (hlink : s.tsl.linkHold = false)
include hquiet hlink

/-- A frame that fails a test leaves its log record (08 R155). -/
theorem exec_rowOf_discarded {kind : LogKind} {detail : Nat} (h : verdictOf f = .discard kind detail) :
    exec (rowOf false f) s = .next (finish s (logError kind detail s)) := by
  rw [exec_rowOf]
  refine event_finish_of ?_ ((logError_agenda ..).trans hquiet)
  rw [receive, h]
  exact if_neg (by simp [unheard, hlink])

theorem exec_rowOf_unknownSource (addr kind : Nat) (haddr : inAddr f = addr) (hkind : inKind f = kind)
    (h : sourceOk (inAddr f) (inKind f) = false) :
    exec (rowOf false f) s = .next (finish s (logError .unknownSource (addr % 512 + kind * 2 ^ 16) s)) := by
  refine exec_rowOf_discarded hquiet hlink ?_
  simp [verdictOf, h, frameDetail_eq _ _ (inKind_lt f), ← haddr, ← hkind]

theorem exec_rowOf_badFields (addr kind : Nat) (haddr : inAddr f = addr) (hkind : inKind f = kind)
    (hsource : sourceOk (inAddr f) (inKind f) = true) (h : fieldsOk f = false) :
    exec (rowOf false f) s = .next (finish s (logError .linkFrame (addr % 512 + kind * 2 ^ 16 + 3 * 2 ^ 24) s)) := by
  refine exec_rowOf_discarded hquiet hlink ?_
  simp [verdictOf, hsource, h, frameDetail_eq _ _ (inKind_lt f), ← haddr, ← hkind]

end

theorem sourceOk_scan_iff {a : Nat} : sourceOk a 0x21 = true ↔ 256 ≤ a ∧ a < 320 := by
  unfold sourceOk
  split
  · next ha => exact ⟨fun h => absurd h (by decide), fun h => by omega⟩
  · next ha =>
    simp only [Bool.and_eq_true, decide_eq_true_eq, and_true]
    omega

/-! ### The frames of a vehicle -/

/-- The part of a vehicle's frame that depends on its kind (08 R156); a SCAN is no vehicle's frame. -/
def actOf : InFrame → State → State
  | .pass v n h => fun t => passAt v n (confirmAuthority v h t)
  | .arrive v n h => fun t => arriveAt v n (confirmAuthority v h t)
  | .hoistReply v tag ans => tagged v tag (hoistReplied v ans)
  | .hoistEnd v tag out id => tagged v tag (hoistEnded v out id)
  | .status v cond code load h => statusFrame v cond code load h
  | .scan _ _ _ _ _ => id

/-- A frame of one of the five kinds that a vehicle sends. -/
def OfVehicle (v : Nat) (f : InFrame) : Prop := inAddr f = v ∧ inKind f ∈ [0x11, 0x12, 0x13, 0x14, 0x15]

theorem OfVehicle.whole {f : InFrame} (h : OfVehicle v f) (s : State) : wholeFrame f s = vehicleFrame v (actOf f) s := by
  obtain ⟨rfl, hkind⟩ := h
  cases f
  case scan => simp [inKind] at hkind
  all_goals rfl

theorem OfVehicle.sourceOk {f : InFrame} (h : OfVehicle v f) : sourceOk (inAddr f) (inKind f) = decide (v < 256) := by
  obtain ⟨rfl, hkind⟩ := h
  by_cases hv : inAddr f < 256
  · rw [sourceOk_vehicle hv hkind, decide_eq_true hv]
  · have hscan : inKind f ≠ 0x21 := fun e => by rw [e] at hkind; simp at hkind
    simp [Machine.sourceOk, hv, hscan]

theorem putVeh_putLink (v w : Nat) (r : Vehicle) (l : Link) (s : State) :
    putVeh v r (putLink w l s) = putLink w l (putVeh v r s) := by
  have hveh : veh (putLink w l s) v = veh s v := rfl
  unfold putVeh
  rw [hveh]
  dsimp only
  (repeat' split) <;> rfl

/-- A frame from a LOST record makes it FAULTED, UNCERTAIN and QUARANTINED (05 R113). -/
theorem lostFrame_eq (hquiet : Quiet s) (v : Nat) : lostFrame v s =
    { queueStand v (putVeh v { veh s v with state := .faulted, uncertain := true, quarantined := true, fault := .silence }
        (putLink v { linkAt s v with silence := some s.clock } s)) with agenda := [.revise v] } := by
  generalize hr : { veh s v with state := .faulted, uncertain := true, quarantined := true, fault := .silence } = r
  have hlinkAt : linkAt (putVeh v r s) v = linkAt s v := linkAt_congr (putVeh_tsl ..) v
  have hlisten : restartSilence v (putVeh v r s) = putVeh v r (putLink v { linkAt s v with silence := some s.clock } s) := by
    rw [putVeh_putLink, restartSilence, modLink, hlinkAt, putVeh_clock]
  rw [lostFrame, modVeh, hr, hlisten]
  exact push_quiet (by simpa [Quiet] using hquiet) _

section
variable {f : InFrame} (hquiet : Quiet s) (hlink : s.tsl.linkHold = false) (hf : OfVehicle v f) (hv : v < 256)
  (hfields : fieldsOk f = true)
include hlink hf hv hfields

theorem receive_ofVehicle : receive f false s = vehicleFrame v (actOf f) s :=
  (receive_whole hlink (hf.sourceOk.trans (decide_eq_true hv)) hfields).trans (hf.whole s)

theorem exec_rowOf_lost (hstate : (veh s v).state = .lost) :
    exec (rowOf false f) s = .next (settle s (lostFrame v s)) := by
  rw [exec_rowOf]
  refine event_settle_of ?_
  rw [receive_ofVehicle hlink hf hv hfields, vehicleFrame, hstate]

include hquiet

/-- A frame from an OFFLINE record is answered with a STAND (08 R156). -/
theorem exec_rowOf_offline (hstate : (veh s v).state = .offline) :
    exec (rowOf false f) s = .next (finish s (queueStand v s)) := by
  rw [exec_rowOf]
  refine event_finish_of ?_ ((queueStand_agenda ..).trans hquiet)
  rw [receive_ofVehicle hlink hf hv hfields, vehicleFrame, hstate]

end

/-! ### The statement -/

/-- Settles O47: frame by frame, by the test that fails or the state of the record. -/
theorem framesThatAreNotTaken : Obligations.FramesThatAreNotTaken := by
  unfold Obligations.FramesThatAreNotTaken
  intro bs id v n held tag ans out cond code load q first last rows early s hquiet frames logs goodHeld goodStatus
  let sent : List InFrame :=
    [.pass v n held, .arrive v n held, .hoistReply v tag ans, .hoistEnd v tag out id, .status v cond code load held]
  have hframes (early : Bool) : frames early = sent.map (fun f => (rowOf early f, inKind f)) := rfl
  have hsent : ∀ f ∈ sent, OfVehicle v f := by simp [sent, OfVehicle, inAddr, inKind]
  refine ⟨fun hunheard => ⟨?bytesUnheard, exec_rowOf_unheard hquiet hunheard (.scan v q first last rows), ?unheard⟩,
    fun hlink => ?heard⟩
  case bytesUnheard => exact event_finish_of (if_pos (by simpa [unheard] using hunheard)) hquiet
  case unheard =>
    rw [hframes, List.forall_mem_map]
    exact fun f _ => exec_rowOf_unheard hquiet hunheard f
  case heard =>
    have hsource {f : InFrame} (hf : f ∈ sent) (hv : v < 256) : sourceOk (inAddr f) (inKind f) = true :=
      (hsent f hf).sourceOk.trans (decide_eq_true hv)
    have hheld : heldOk held = true ↔ goodHeld := heldOk_iff
    have hstatus : fieldsOk (.status v cond code load held) = true ↔ goodStatus ∧ goodHeld := by
      simp [fieldsOk, heldOk_iff, goodStatus, goodHeld]
    refine ⟨?bytes, ?address, ?concentrator, ?movement, ?reply, ?ended, ?status, ?scan, ?record⟩
    case bytes =>
      intro kind detail hexamine
      refine event_finish_of ?_ ((logError_agenda ..).trans hquiet)
      rw [receiveBytes, hexamine]
      exact if_neg (by simp [Machine.unheard, hlink])
    case address =>
      intro hv
      rw [hframes, List.forall_mem_map]
      intro f hf
      obtain ⟨haddr, -⟩ := hsent f hf
      have hno : sourceOk (inAddr f) (inKind f) = false := (hsent f hf).sourceOk.trans (decide_eq_false (by omega))
      exact exec_rowOf_unknownSource hquiet hlink v (inKind f) haddr rfl hno
    case concentrator =>
      intro hv
      have hno : ¬ sourceOk v 0x21 = true := fun h => by
        obtain ⟨hlow, hhigh⟩ := sourceOk_scan_iff.1 h
        omega
      exact exec_rowOf_unknownSource (f := .scan v q first last rows) hquiet hlink v 0x21 rfl rfl (Bool.eq_false_iff.2 hno)
    case movement =>
      intro hv hfails
      have hno : (decide (n < 2048) && heldOk held) = false := by
        rw [Bool.eq_false_iff, ne_eq, Bool.and_eq_true, decide_eq_true_eq, hheld]
        rintro ⟨hn, hgood⟩
        exact hfails.elim (by omega) (· hgood)
      have htake : (frames false).take 2 = (sent.take 2).map (fun f => (rowOf false f, inKind f)) := rfl
      rw [htake, List.forall_mem_map]
      intro f hf
      obtain ⟨haddr, -⟩ := hsent f (List.mem_of_mem_take hf)
      have hfields : fieldsOk f = false := by
        simp only [sent, List.take_succ_cons, List.take_zero, List.mem_cons, List.not_mem_nil, or_false] at hf
        rcases hf with rfl | rfl <;> exact hno
      exact exec_rowOf_badFields hquiet hlink v (inKind f) haddr rfl (hsource (List.mem_of_mem_take hf) hv) hfields
    case reply =>
      intro hv hfails
      refine exec_rowOf_badFields (f := .hoistReply v tag ans) hquiet hlink v 0x13 rfl rfl (hsource (by simp [sent]) hv) ?_
      simp [fieldsOk]; omega
    case ended =>
      intro hv hfails
      refine exec_rowOf_badFields (f := .hoistEnd v tag out id) hquiet hlink v 0x14 rfl rfl (hsource (by simp [sent]) hv) ?_
      simp [fieldsOk]; omega
    case status =>
      intro hv hfails
      have hsourced := hsource (f := .status v cond code load held) (by simp [sent]) hv
      refine exec_rowOf_badFields hquiet hlink v 0x15 rfl rfl hsourced ?_
      exact Bool.eq_false_iff.2 fun h => hfails.elim (· (hstatus.1 h).1) (· (hstatus.1 h).2)
    case scan =>
      intro hlow hhigh hfails
      have hsourced : sourceOk v 0x21 = true := sourceOk_scan_iff.2 ⟨hlow, hhigh⟩
      refine exec_rowOf_badFields (f := .scan v q first last rows) hquiet hlink v 0x21 rfl rfl hsourced ?_
      simp [fieldsOk]
      rw [← List.length_eq_zero_iff] at hfails
      omega
    case record =>
      intro hv hn hgood hans hans' hout hout' hid hcond
      have hheld' : heldOk held = true := hheld.2 hgood
      have hfields : ∀ f ∈ sent, fieldsOk f = true := by
        simp only [sent, List.forall_mem_cons, hstatus.2 ⟨hcond, hgood⟩]
        simp [fieldsOk, hn, hheld', hans, hans', hout, hout', hid]
      refine ⟨fun hstate => ?_, fun hstate => ?_⟩
      · rw [hframes, List.forall_mem_map]
        exact fun f hf => exec_rowOf_offline hquiet hlink (hsent f hf) hv (hfields f hf) hstate
      · rw [hframes, List.forall_mem_map, ← lostFrame_eq hquiet]
        exact fun f hf => exec_rowOf_lost hlink (hsent f hf) hv (hfields f hf) hstate

end Sys2Proof.Machine
end

section
/-! LINK_HOLD set and cleared by a CONTROL write (08 R167 to R169; 10 R184). -/

namespace Sys2Proof.Machine

variable {s t : State}

/-! ### A CONTROL write that neither resets, starts nor clears the log -/

theorem controlWrite_plain {w : BitVec 64} (hwarm : w.getLsbD 1 = false) (hstart : w.getLsbD 0 = false)
    (hcl : w.getLsbD 9 = false) (s : State) : controlWrite w s =
      let t := setLinkHold (w.getLsbD 5) { s with win := { s.win with manualEnable := w.getLsbD 4 } }
      { t with win := { t.win with ce := w.getLsbD 8 } } := by
  rw [controlWrite, hwarm, hstart, hcl]
  rfl

/-! The bits of a CONTROL write beside LINK_HOLD. -/

theorem getLsbD_or_link {w : BitVec 64} {i : Nat} (hi : i ∈ [0, 1, 4, 8, 9]) : (w ||| 0x20#64).getLsbD i = w.getLsbD i := by
  simp only [List.mem_cons, List.not_mem_nil, or_false] at hi
  rcases hi with rfl | rfl | rfl | rfl | rfl <;> simp
theorem getLsbD_and_link {w : BitVec 64} {i : Nat} (hi : i ∈ [0, 1, 4, 8, 9]) :
    (w &&& ~~~0x20#64).getLsbD i = w.getLsbD i := by
  simp only [List.mem_cons, List.not_mem_nil, or_false] at hi
  rcases hi with rfl | rfl | rfl | rfl | rfl <;> simp

section
variable {w : BitVec 64} (hwarm : w.getLsbD 1 = false) (hstart : w.getLsbD 0 = false) (hcl : w.getLsbD 9 = false)
include hwarm hstart hcl

theorem controlWrite_set (s : State) : controlWrite (w ||| 0x20#64) s =
    let t := setLinkHold true { s with win := { s.win with manualEnable := w.getLsbD 4 } }
    { t with win := { t.win with ce := w.getLsbD 8 } } := by
  have hset : (w ||| 0x20#64).getLsbD 5 = true := by simp
  rw [controlWrite_plain, hset, getLsbD_or_link (i := 4) (by simp), getLsbD_or_link (i := 8) (by simp)]
  · exact (getLsbD_or_link (by simp)).trans hwarm
  · exact (getLsbD_or_link (by simp)).trans hstart
  · exact (getLsbD_or_link (by simp)).trans hcl

theorem controlWrite_clear (s : State) : controlWrite (w &&& ~~~0x20#64) s =
    let t := setLinkHold false { s with win := { s.win with manualEnable := w.getLsbD 4 } }
    { t with win := { t.win with ce := w.getLsbD 8 } } := by
  have hclear : (w &&& ~~~0x20#64).getLsbD 5 = false := by simp
  rw [controlWrite_plain, hclear, getLsbD_and_link (i := 4) (by simp), getLsbD_and_link (i := 8) (by simp)]
  · exact (getLsbD_and_link (by simp)).trans hwarm
  · exact (getLsbD_and_link (by simp)).trans hstart
  · exact (getLsbD_and_link (by simp)).trans hcl

end

/-! ### Updates of many records -/

/-- An update made of each of some records, which makes no difference where it has been made already. -/
theorem read_foldl {α : Type} {g : Nat → State → State} {read : State → Nat → α} {f : α → α}
    (hsound : ∀ i t, Sound t → Sound (g i t)) (hsame : ∀ i t, Sound t → read (g i t) i = f (read t i))
    (hother : ∀ i j t, j ≠ i → read (g i t) j = read t j) (hf : ∀ x, f (f x) = f x) (hs : Sound s) (l : List Nat) (i : Nat) :
    read (l.foldl (fun t j => g j t) s) i = if i ∈ l then f (read s i) else read s i := by
  induction l generalizing s with
  | nil => rfl
  | cons j l ih =>
    rw [List.foldl_cons, ih (hsound j s hs)]
    by_cases hij : i = j
    · subst hij
      simp [hsame i s hs, hf]
    · simp [hij, hother j i s hij]

/-! ### LINK_HOLD set -/

theorem modVeh_unmark (v : Nat) (s : State) : modVeh v unmark s =
    { s with flt := { s.flt with vehicles := tset {} s.flt.vehicles v (unmark (veh s v)) } } := by
  have havail : availChange (veh s v) (unmark (veh s v)) = false := by simp [availChange, unmark]
  have hleave : leavesWindow (veh s v) (unmark (veh s v)) = false := by simp +contextual [leavesWindow, unmark]
  simp [modVeh, putVeh, havail, hleave]

theorem unmark_unmark (r : Vehicle) : unmark (unmark r) = unmark r := by
  simp [unmark, Function.comp_def]

theorem foldl_modLink_eq (f : Link → Link) (l : List Nat) (s : State) : ∃ L,
    l.foldl (fun t v => modLink v f t) s = { s with tsl := { s.tsl with links := L } } := by
  induction l generalizing s with
  | nil => exact ⟨_, rfl⟩
  | cons v l ih => exact ih (modLink v f s)

theorem foldl_unmark_eq (l : List Nat) (s : State) : ∃ V,
    l.foldl (fun t v => modVeh v unmark t) s = { s with flt := { s.flt with vehicles := V } } := by
  induction l generalizing s with
  | nil => exact ⟨_, rfl⟩
  | cons v l ih =>
    rw [List.foldl_cons, modVeh_unmark]
    exact ih _

/-- The link cut off: nothing is queued, nothing in transmission (08 R167). -/
def cutOff (s : State) : State :=
  { s with tsl := { s.tsl with linkHold := true, tx := none, grantQueue := [], hoistQueue := [] } }

theorem cutOff_sound (hs : Sound s) : Sound (cutOff s) := { hs with held := fun _ => ⟨rfl, rfl, rfl⟩ }

theorem linkHoldOn_spec (hs : Sound s) : ∃ L V,
    linkHoldOn s = { cutOff s with tsl := { (cutOff s).tsl with links := L }, flt := { s.flt with vehicles := V } } ∧
    (∀ v, linkAt (linkHoldOn s) v = { linkAt s v with replyWait := none }) ∧
    ∀ v, veh (linkHoldOn s) v = unmark (veh s v) := by
  let stop (l : Link) : Link := { l with replyWait := none }
  let stopped := (tkeys s.tsl.links).foldl (fun t v => modLink v stop t) (cutOff s)
  obtain ⟨L, hstopped⟩ : ∃ L, stopped = { cutOff s with tsl := { (cutOff s).tsl with links := L } } := foldl_modLink_eq ..
  have hstoppedSound : Sound stopped := Sound.foldl (fun _ _ ht => modLink_sound _ _ ht) _ (cutOff_sound hs)
  have hon : linkHoldOn s = (tkeys stopped.flt.vehicles).foldl (fun t v => modVeh v unmark t) stopped := by
    rw [tkeys, List.foldl_map]; rfl
  obtain ⟨V, hunmarked⟩ := foldl_unmark_eq (tkeys stopped.flt.vehicles) stopped
  rw [← hon] at hunmarked
  refine ⟨L, V, ?whole, fun v => ?link, fun v => ?vehicle⟩
  case whole => rw [hunmarked, hstopped]; rfl
  case link =>
    have htsl : (linkHoldOn s).tsl = stopped.tsl := by rw [hunmarked]
    have hread := read_foldl (g := fun v => modLink v stop) (read := linkAt) (f := stop) (fun _ _ ht => modLink_sound _ _ ht)
      (fun v t ht => tget_tset_same _ _ _ ht.links) (fun v w t hw => linkAt_putLink_other _ _ hw) (fun _ => rfl)
      (cutOff_sound hs) (tkeys s.tsl.links) v
    rw [linkAt_congr htsl]
    refine hread.trans ?_
    split
    · rfl
    · next hv =>
      have hempty : linkAt s v = {} := tget_of_not_mem _ hv
      exact hempty.trans (by rw [hempty])
  case vehicle =>
    have hread := read_foldl (g := fun v => modVeh v unmark) (read := veh) (f := unmark) (fun _ _ ht => modVeh_sound _ _ ht)
      (fun v t ht => ht.veh_modVeh v _) (fun v w t hw => veh_modVeh_other _ _ hw) unmark_unmark
      hstoppedSound (tkeys stopped.flt.vehicles) v
    have hflt : stopped.flt = s.flt := by rw [hstopped]; rfl
    rw [hon, ← veh_congr hflt]
    refine hread.trans ?_
    split
    · rfl
    · next hv =>
      have hempty : veh stopped v = {} := tget_of_not_mem _ hv
      rw [hempty]; rfl

/-! ### LINK_HOLD cleared -/

theorem enqueue_new {α : Type} {v : Nat} {q : List (Nat × α)} (h : v ∉ q.map (fun p => p.1)) (e : α) :
    enqueue v e q = q ++ [(v, e)] := by
  induction q with
  | nil => rfl
  | cons p q ih =>
    simp only [List.map_cons, List.mem_cons, not_or] at h
    rw [enqueue, if_neg (Ne.symm h.1), ih h.2, List.cons_append]

/-- Entries of different addresses join a queue in their order. -/
theorem foldl_enqueue {α : Type} {l q : List (Nat × α)} (h : ((q ++ l).map (fun p => p.1)).Nodup) :
    l.foldl (fun q p => enqueue p.1 p.2 q) q = q ++ l := by
  induction l generalizing q with
  | nil => simp
  | cons p l ih =>
    have hnew : p.1 ∉ q.map (fun p => p.1) := by
      rw [List.map_append, List.map_cons] at h
      exact fun hp => (List.nodup_append.1 h).2.2 _ hp _ List.mem_cons_self rfl
    rw [List.foldl_cons, enqueue_new hnew, ih (by simpa using h)]
    simp

/-- Entries made of a table's, each for its own index, join an empty queue in rising order. -/
theorem foldl_enqueue_table {α β : Type} [DecidableEq α] {d : α} {tb : Table α} (hwf : tableWf d tb = true)
    {f : Nat × α → Option (Nat × β)} (hf : ∀ p e, f p = some e → e.1 = p.1) :
    (tb.filterMap f).foldl (fun q p => enqueue p.1 p.2 q) [] = tb.filterMap f := by
  refine (foldl_enqueue ?_).trans (List.nil_append _)
  have hrising : tb.Pairwise (fun p q => p.1 < q.1) := List.pairwise_map.1 (tkeys_pairwise hwf)
  rw [List.nil_append, List.Nodup, List.pairwise_map]
  refine hrising.filterMap f fun p q hpq e he e' he' => ?_
  rw [hf p e he, hf q e' he']
  exact Nat.ne_of_lt hpq

/-- What a vehicle is sent again: a GRANT or a STAND, nothing if it is OFFLINE or LOST (08 R169). -/
def authorityFor (phase : FleetPhase) (p : Nat × Vehicle) : Option (Nat × Bool) :=
  if p.2.state = .offline ∨ p.2.state = .lost then none
  else some (p.1, decide (phase = .operating) && !p.2.uncertain && !decide (p.2.state = .faulted) && !decide (p.2.path = []))

theorem authorityFor_addr {phase : FleetPhase} {p : Nat × Vehicle} {e : Nat × Bool} (h : authorityFor phase p = some e) :
    e.1 = p.1 := by
  unfold authorityFor at h
  split at h
  · cases h
  · cases h; rfl

theorem authorityAgain_eq (hlink : s.tsl.linkHold = false) (p : Nat × Vehicle) : authorityAgain p.1 p.2 s =
    { s with tsl := { s.tsl with
        grantQueue := (authorityFor s.flt.phase p).toList.foldl (fun q e => enqueue e.1 e.2 q) s.tsl.grantQueue } } := by
  unfold authorityAgain authorityFor
  by_cases hout : p.2.state = .offline ∨ p.2.state = .lost
  · rw [if_pos hout, if_pos hout]; rfl
  · rw [if_neg hout, if_neg hout]
    split
    · next h =>
      obtain ⟨hphase, huncertain, hfaulted, hpath⟩ := h
      simp [queueGrant, hlink, hphase, huncertain, hfaulted, hpath]
    · next h =>
      have hstand : (decide (s.flt.phase = .operating) && !p.2.uncertain && !decide (p.2.state = .faulted) &&
          !decide (p.2.path = [])) = false := by simpa [and_assoc] using h
      rw [hstand]
      simp [queueStand, hlink]

theorem foldl_authorityAgain (hlink : s.tsl.linkHold = false) (l : List (Nat × Vehicle)) :
    l.foldl (fun t p => authorityAgain p.1 p.2 t) s = { s with tsl := { s.tsl with
      grantQueue := (l.filterMap (authorityFor s.flt.phase)).foldl (fun q e => enqueue e.1 e.2 q) s.tsl.grantQueue } } := by
  induction l generalizing s with
  | nil => rfl
  | cons p l ih =>
    rw [List.foldl_cons, authorityAgain_eq hlink]
    refine (ih ?_).trans ?_
    · exact hlink
    rw [List.filterMap_cons]
    cases authorityFor s.flt.phase p <;> rfl

/-- A link of which no send counts. -/
def unsent (l : Link) : Link := { l with sends := 0 }

@[simp] theorem unsent_unsent (l : Link) : unsent (unsent l) = unsent l := rfl

/-- Whether a record has a cycle that is QUEUED or AWAITING. -/
def cycleWaits (r : Vehicle) : Bool := r.hoist.any (fun h => decide (h.phase = .queued) || decide (h.phase = .awaiting))

/-- The HOIST that a record's cycle is handed again, under its tag (08 R169; log 17). -/
def hoistFor (s : State) (p : Nat × Vehicle) : Option (Nat × HoistEntry) := match p.2.hoist with
  | some h => if cycleWaits p.2 then some (p.1, hoistEntry s (linkAt s p.1).tag h) else none
  | none => none

theorem hoistFor_eq_some {p : Nat × Vehicle} {e : Nat × HoistEntry} : hoistFor s p = some e ↔
    ∃ h, p.2.hoist = some h ∧ cycleWaits p.2 = true ∧ e = (p.1, hoistEntry s (linkAt s p.1).tag h) := by
  unfold hoistFor
  rcases p.2.hoist with _ | h
  · simp
  · by_cases hwaits : cycleWaits p.2 = true <;> simp [hwaits, eq_comm (b := e)]

/-- A record whose cycle waits has its HOIST handed again: no send of it counts any more. -/
theorem hoistAgain_waits (ht : Sound t) (hlink : t.tsl.linkHold = false) {p : Nat × Vehicle} (hp : veh t p.1 = p.2)
    {e : Nat × HoistEntry} (he : hoistFor t p = some e) : hoistAgain p.1 p.2 t = { t with tsl := { t.tsl with
      links := tset {} t.tsl.links p.1 (unsent (linkAt t p.1))
      hoistQueue := enqueue e.1 e.2 t.tsl.hoistQueue } } := by
  obtain ⟨h, hh, hwaits, rfl⟩ := hoistFor_eq_some.1 he
  have hphase : h.phase = .queued ∨ h.phase = .awaiting := by simpa [cycleWaits, hh] using hwaits
  have hread : linkAt (putLink p.1 (unsent (linkAt t p.1)) t) p.1 = unsent (linkAt t p.1) :=
    tget_tset_same _ _ _ ht.links
  have hveh : (veh (putLink p.1 (unsent (linkAt t p.1)) t) p.1).hoist = some h := (congrArg Vehicle.hoist hp).trans hh
  have hhand : handHoist p.1 false t = queueHoist p.1 (putLink p.1 (unsent (linkAt t p.1)) t) := rfl
  rw [hoistAgain, hh]
  dsimp only
  rw [if_pos hphase, hhand, queueHoist, hveh]
  dsimp only
  rw [hread]
  exact if_neg (by simp [hlink])

theorem hoistAgain_waits_not {p : Nat × Vehicle} (h : hoistFor t p = none) : hoistAgain p.1 p.2 t = t := by
  unfold hoistFor at h
  unfold hoistAgain
  rcases hh : p.2.hoist with _ | c
  · rfl
  · have hphase : ¬ (c.phase = .queued ∨ c.phase = .awaiting) := by simpa [cycleWaits, hh] using h
    exact if_neg hphase

theorem foldl_hoistAgain (ht : Sound t) (hlink : t.tsl.linkHold = false) {l : List (Nat × Vehicle)}
    (hl : ∀ p ∈ l, veh t p.1 = p.2) : ∃ L,
    l.foldl (fun u p => hoistAgain p.1 p.2 u) t = { t with tsl := { t.tsl with
      links := L
      hoistQueue := (l.filterMap (hoistFor t)).foldl (fun q e => enqueue e.1 e.2 q) t.tsl.hoistQueue } } ∧
    ∀ v, tget {} L v = if v ∈ tkeys l ∧ cycleWaits (veh t v) = true then unsent (linkAt t v) else linkAt t v := by
  induction l generalizing t with
  | nil => exact ⟨_, rfl, fun v => (if_neg (by simp [tkeys])).symm⟩
  | cons p l ih =>
    obtain ⟨hp, hl⟩ := List.forall_mem_cons.1 hl
    rcases he : hoistFor t p with _ | e
    case none =>
      obtain ⟨L, hfold, hread⟩ := ih ht hlink hl
      refine ⟨L, by rw [List.foldl_cons, hoistAgain_waits_not he, hfold, List.filterMap_cons_none he], fun v => ?_⟩
      rw [hread]
      refine ite_congr_iff ⟨fun h => ⟨List.mem_cons_of_mem _ h.1, h.2⟩, fun ⟨hv, hwaits⟩ => ⟨?_, hwaits⟩⟩ rfl rfl
      refine (List.mem_cons.1 hv).resolve_left ?_
      rintro rfl
      rw [hp] at hwaits
      obtain ⟨h, hh, -⟩ := (Option.any_eq_true _ _).1 hwaits
      exact absurd (hoistFor_eq_some (s := t).2 ⟨h, hh, hwaits, rfl⟩) (by simp [he])
    case some =>
      obtain ⟨-, -, hwaits, -⟩ := hoistFor_eq_some.1 he
      have hstep := hoistAgain_waits ht hlink hp he
      have hsound : Sound (hoistAgain p.1 p.2 t) := hoistAgain_sound _ _ ht
      rw [List.foldl_cons]
      generalize hoistAgain p.1 p.2 t = u at hstep hsound
      have hflt : u.flt = t.flt := by rw [hstep]
      have hread (v : Nat) : linkAt u v = if v = p.1 then unsent (linkAt t p.1) else linkAt t v := by
        rw [hstep]
        split
        · next hv => subst hv; exact tget_tset_same _ _ _ ht.links
        · next hv => exact tget_tset_other _ _ _ hv
      have htag (v : Nat) : (linkAt u v).tag = (linkAt t v).tag := by
        rw [hread]
        split
        · next hv => rw [hv]; rfl
        · rfl
      have hfor : hoistFor u = hoistFor t := by
        funext q
        simp only [hoistFor, htag]
        rw [hstep]
        rfl
      obtain ⟨L, hfold, hreadL⟩ := ih hsound (by rw [hstep]; exact hlink) (fun q hq => (veh_congr hflt q.1).trans (hl q hq))
      refine ⟨L, ?_, fun v => ?_⟩
      · rw [hfold, hfor, hstep, List.filterMap_cons_some he]
        rfl
      · have hmem : v ∈ tkeys (p :: l) ↔ v = p.1 ∨ v ∈ tkeys l := List.mem_cons
        rw [hreadL, veh_congr hflt, hread]
        by_cases hv : v = p.1
        · subst hv
          simp [hmem, hp, hwaits]
        · simp [hmem, hv]

/-- LINK_HOLD clear: the authorities queued, then the HOISTs of the cycles that wait (08 R169). -/
theorem linkHoldOff_spec (hs : Sound s) (hheld : s.tsl.linkHold = true) : ∃ L,
    linkHoldOff s = { s with tsl := { s.tsl with
      linkHold := false
      links := L
      grantQueue := s.flt.vehicles.filterMap (authorityFor s.flt.phase)
      hoistQueue := s.flt.vehicles.filterMap (hoistFor s) } } ∧
    ∀ v, linkAt (linkHoldOff s) v = if cycleWaits (veh s v) = true then unsent (linkAt s v) else linkAt s v := by
  obtain ⟨hgrants, hhoists, -⟩ := hs.held hheld
  let free : State := { s with tsl := { s.tsl with linkHold := false } }
  let granted : State := { free with tsl := { free.tsl with grantQueue := s.flt.vehicles.filterMap (authorityFor s.flt.phase) } }
  have hgranted : s.flt.vehicles.foldl (fun t p => authorityAgain p.1 p.2 t) free = granted := by
    have hqueue := foldl_enqueue_table hs.vehicles (f := authorityFor free.flt.phase) fun _ _ => authorityFor_addr
    have hempty : free.tsl.grantQueue = [] := hgrants
    rw [foldl_authorityAgain (s := free) rfl, hempty, hqueue]
  have hsound : Sound granted := { hs with held := fun h => absurd h (by simp [granted, free]) }
  have hoff : linkHoldOff s = s.flt.vehicles.foldl (fun t p => hoistAgain p.1 p.2 t) granted := by
    have hsteps : linkHoldOff s =
        (fun t => (fleet t).foldl (fun u p => hoistAgain p.1 p.2 u) t)
          (s.flt.vehicles.foldl (fun t p => authorityAgain p.1 p.2 t) free) := rfl
    rw [hsteps, hgranted]
    rfl
  obtain ⟨L, hfold, hread⟩ := foldl_hoistAgain hsound rfl (l := s.flt.vehicles) (fun p hp => tget_of_mem hs.vehicles hp)
  have hqueue := foldl_enqueue_table hs.vehicles (f := hoistFor s) fun p e he => by
    obtain ⟨h, -, -, rfl⟩ := hoistFor_eq_some.1 he
    rfl
  have hfor : hoistFor granted = hoistFor s := rfl
  have hwhole : linkHoldOff s = { s with tsl := { s.tsl with
      linkHold := false
      links := L
      grantQueue := s.flt.vehicles.filterMap (authorityFor s.flt.phase)
      hoistQueue := s.flt.vehicles.filterMap (hoistFor s) } } := by
    have hempty : granted.tsl.hoistQueue = [] := hhoists
    rw [hoff, hfold, hfor, hempty, hqueue]
  refine ⟨L, hwhole, fun v => ?_⟩
  rw [hwhole]
  refine (hread v).trans (ite_congr_iff ⟨fun h => h.2, fun hwaits => ⟨?_, hwaits⟩⟩ rfl rfl)
  refine Classical.not_not.1 fun hv => ?_
  have hempty : veh s v = {} := tget_of_not_mem _ hv
  rw [hempty] at hwaits
  exact absurd hwaits (by decide)

/-! ### The statement -/

/-- Settles O14: by LINK_HOLD before the write, and the value written to it. -/
theorem linkHoldSilencesAndResumesTheLink : Obligations.LinkHoldSilencesAndResumesTheLink := by
  unfold Obligations.LinkHoldSilencesAndResumesTheLink
  intro w s hquiet hs hwarm hstart hcl s1
  let manual : State := { s with win := { s.win with manualEnable := w.getLsbD 4 } }
  have hmanual : Sound manual := manual_update_sound _ hs
  have hset {t : State} (ht : setLinkHold true manual = t) (hagenda : t.agenda = s.agenda) :
      exec (.linkHoldSet w) s = .next (finish s { t with win := { t.win with ce := w.getLsbD 8 } }) := by
    subst ht
    exact event_finish_of (controlWrite_set hwarm hstart hcl s) (hagenda.trans hquiet)
  have hclear {t : State} (ht : setLinkHold false manual = t) (hagenda : t.agenda = s.agenda) :
      exec (.linkHoldClear w) s = .next (finish s { t with win := { t.win with ce := w.getLsbD 8 } }) := by
    subst ht
    exact event_finish_of (controlWrite_clear hwarm hstart hcl s) (hagenda.trans hquiet)
  refine ⟨fun hheld => ?setAlready, fun hfree => ?set, fun hfree => ?clearAlready, fun hheld => ?clear⟩
  case setAlready => exact hset (t := manual) (setLinkHold_same hheld) rfl
  case clearAlready => exact hclear (t := manual) (setLinkHold_same hfree) rfl
  case set =>
    obtain ⟨L, V, hwhole, hlinks, hvehicles⟩ := linkHoldOn_spec hmanual
    have hon : setLinkHold true manual = linkHoldOn manual := if_neg (by simp [manual, hfree])
    refine ⟨_, hset hon (by rw [hwhole]; rfl), ?_, hlinks, hvehicles⟩
    rw [hwhole]
    rfl
  case clear =>
    obtain ⟨L, hwhole, hlinks⟩ := linkHoldOff_spec hmanual hheld
    have hoff : setLinkHold false manual = linkHoldOff manual := if_neg (by simp [manual, hheld])
    refine ⟨_, hclear hoff (by rw [hwhole]), ?_, hlinks⟩
    rw [hwhole]
    rfl

end Sys2Proof.Machine
end

section
/-! SUPPORT. What the end or the return of a MOVE leaves of other slots, of its vehicle and of the zones (03 R61 to R63). -/

namespace Sys2Proof.Machine

variable {s t u : State} {v k j : Nat} {o : OrderRec}

/-! ### Slots that are spared -/

/-- From `s` to `t` the slot `j` keeps what it is owed and its live order, which is at most told of a fleet availability
change (04 R72). -/
structure Spares (j : Nat) (s t : State) : Prop where
  live : liveAt t j = liveAt s j ∨ liveAt t j = told (liveAt s j)
  due : slotDueAt t j = slotDueAt s j

theorem Spares.of_eq (horders : t.orders = s.orders) (hwin : t.win = s.win) : Spares j s t :=
  ⟨.inl (by rw [liveAt, horders, liveAt]), slotDueAt_congr hwin j⟩

theorem Spares.refl (j : Nat) (s : State) : Spares j s s := .of_eq rfl rfl

theorem Spares.trans (h : Spares j s t) (h' : Spares j t u) : Spares j s u := by
  refine ⟨?_, h'.due.trans h.due⟩
  rcases h.live with ht | ht <;> rcases h'.live with hu | hu <;> simp [hu, ht, told_told]

theorem spares_push (j : Nat) (ts : List Task) (s : State) : Spares j s (push ts s) := .of_eq rfl rfl

theorem spares_putVeh (j v : Nat) (r : Vehicle) (s : State) : Spares j s (putVeh v r s) :=
  ⟨liveAt_putVeh .., slotDueAt_congr (putVeh_win ..) j⟩

theorem spares_putShelf (j st : Nat) (x : Shelf) (s : State) : Spares j s (putShelf st x s) :=
  ⟨liveAt_putShelf .., slotDueAt_congr (putShelf_win ..) j⟩

theorem spares_dropHoist (j v : Nat) (s : State) : Spares j s (dropHoist v s) := by
  rw [dropHoist, voidHoist_eq]
  exact .of_eq rfl rfl

theorem spares_endCycle (j v : Nat) (s : State) : Spares j s (endCycle v s) := by
  unfold endCycle
  split
  · exact .refl j s
  · exact (spares_putVeh ..).trans (spares_dropHoist ..)

theorem spares_freeShelves (j k : Nat) (s : State) : Spares j s (freeShelves k s) := by
  unfold freeShelves
  generalize (s.buf.shelves.filter _).map _ = l
  induction l generalizing s with
  | nil => exact .refl j s
  | cons st l ih => exact (spares_putShelf ..).trans (ih _)

theorem spares_unlinkOrder (j k : Nat) (v : Option Nat) (s : State) : Spares j s (unlinkOrder k v s) := by
  cases v with
  | none => exact .refl j s
  | some v =>
    have hcurrent : Spares j s (dropCurrent k v s) := by
      unfold dropCurrent
      split
      · exact (spares_putVeh ..).trans (spares_endCycle ..)
      · exact .refl j s
    rw [unlinkOrder_some, dropChained]
    split
    · exact hcurrent.trans (spares_putVeh ..)
    · exact hcurrent

theorem spares_putLive (l : Option Live) (s : State) (h : j ≠ k) : Spares j s (putLive k l s) :=
  ⟨.inl (liveAt_putLive_other _ l h), rfl⟩

theorem spares_oweFinal (f : Final) (s : State) (h : j ≠ k) : Spares j s (oweFinal k f s) :=
  ⟨.inl rfl, slotDueAt_putSlotDue_other _ _ h⟩

/-- A directive is told of nothing. -/
theorem told_eq_directive {l : Option Live} {d : DirRec} : told l = some (.directive d) ↔ l = some (.directive d) := by
  rcases l with _ | r | d' <;> simp [told]
theorem Spares.directive_iff (h : Spares j s t) {d : DirRec} :
    liveAt t j = some (.directive d) ↔ liveAt s j = some (.directive d) := by
  rcases h.live with ht | ht <;> rw [ht]
  exact told_eq_directive

/-- An order whose stale flag is clear keeps its record. -/
theorem Spares.fresh (h : Spares j s t) (ho : orderAt s j = some o) (hfresh : o.stale = false) : orderAt t j = some o := by
  rw [orderAt_eq_some] at ho ⊢
  rcases h.live with ht | ht <;> rw [ht, ho]
  have hsame : { o with stale := false } = o := by rw [← hfresh]
  simp [told, hsame]

theorem Spares.not_order (h : Spares j s t) (ho : orderAt s j = none) : orderAt t j = none := by
  rcases h.live with ht | ht
  · rw [orderAt_congr ht, ho]
  · rw [orderAt, ht]
    rw [orderAt] at ho
    rcases hl : liveAt s j with _ | r | d
    · rfl
    · rw [hl] at ho; cases ho
    · rfl

/-- An order, whatever its record, is at most told of an availability change. -/
theorem Spares.order (h : Spares j s t) (ho : orderAt s j = some o) :
    orderAt t j = some o ∨ orderAt t j = some { o with stale := false } := by
  rw [orderAt_eq_some] at ho
  rw [orderAt_eq_some, orderAt_eq_some]
  rcases h.live with ht | ht <;> rw [ht, ho]
  · exact .inl rfl
  · by_cases hstate : o.state = .pending <;> simp [told, hstate]

/-! ### A slot whose MOVE has ended -/

/-- The slot's live order is gone, and it is owed the result `f`. -/
def Gone (t : State) (k : Nat) (f : Final) : Prop := liveAt t k = none ∧ slotDueAt t k = { taken := false, final := some f }

theorem Gone.spared {f : Final} (h : Gone s k f) (hs : Spares k s t) : Gone t k f := by
  obtain ⟨hlive, hdue⟩ := h
  refine ⟨?_, hs.due.trans hdue⟩
  rcases hs.live with ht | ht <;> rw [ht, hlive]
  rfl

theorem finishOrder_gone (hs : Sound s) (ho : orderAt s k = some o) (code : ResultCode) (reason : Option Reason) (place : Place) :
    Gone (finishOrder k code reason place s) k (moveFinal { o with ended := some s.clock } code reason 0 place) := by
  obtain ⟨hlive, hdue, -⟩ := aFinishedMoveLeavesNothingBehind k o code reason place s hs ho
  exact ⟨hlive, hdue⟩

/-! ### The zones stay -/

theorem dropHoist_zones (v : Nat) (s : State) : (dropHoist v s).zones = s.zones := by rw [dropHoist, voidHoist_eq]; rfl
theorem endCycle_zones (v : Nat) (s : State) : (endCycle v s).zones = s.zones := by
  unfold endCycle
  split
  · rfl
  · exact (dropHoist_zones ..).trans (putVeh_zones ..)
theorem freeShelves_zones (k : Nat) (s : State) : (freeShelves k s).zones = s.zones := by
  unfold freeShelves
  generalize (s.buf.shelves.filter _).map _ = l
  induction l generalizing s with
  | nil => rfl
  | cons st l ih => rw [List.foldl_cons, ih, putShelf_zones]
theorem unlinkOrder_zones (k : Nat) (v : Option Nat) (s : State) : (unlinkOrder k v s).zones = s.zones := by
  cases v with
  | none => rfl
  | some v =>
    have hcurrent : (dropCurrent k v s).zones = s.zones := by
      unfold dropCurrent
      split
      · exact (endCycle_zones ..).trans (putVeh_zones ..)
      · rfl
    rw [unlinkOrder_some, dropChained]
    split
    · exact (putVeh_zones ..).trans hcurrent
    · exact hcurrent

/-! ### The order's vehicle -/

/-- A record whose vehicle holds the order `k` no longer (03 R63). -/
def gaveUp (k : Nat) (r : Vehicle) : Vehicle := { r with
  current := if r.current = some k then none else r.current
  hoist := if r.current = some k then none else r.hoist
  chained := if r.chained = some k then none else r.chained }

/-- From `s` to `t` the MOVE `k`, of record `o`, is taken from its vehicle, and beside it nothing that is live changes. -/
structure Releases (k : Nat) (o : OrderRec) (s t : State) : Prop where
  sound : Sound t
  vehicle : ∀ v, veh t v = if o.vehicle = some v then gaveUp k (veh s v) else veh s v
  others : ∀ j, j ≠ k → Spares j s t
  zones : t.zones = s.zones

theorem veh_unlinkOrder (hs : Sound s) (k : Nat) (w : Option Nat) (v : Nat) :
    veh (unlinkOrder k w s) v = if w = some v then gaveUp k (veh s v) else veh s v := by
  split
  · next hw => subst hw; exact hs.veh_unlinkOrder k v
  · next hw => exact veh_unlinkOrder_other _ hw

theorem releases_finishOrder (hs : Sound s) (ho : orderAt s k = some o) (code : ResultCode) (reason : Option Reason)
    (place : Place) : Releases k o s (finishOrder k code reason place s) := by
  obtain ⟨m, d, ht, -⟩ := finishOrder_eq ho code reason place
  refine ⟨finishOrder_sound _ _ _ _ hs, fun v => ?_, fun j hj => ?_, ?_⟩ <;> rw [ht]
  · exact (veh_unlinkOrder (oweFinal_sound _ _ (freeShelves_sound _ hs)) k o.vehicle v).trans (by rw [veh_freed])
  · exact ((spares_freeShelves ..).trans (spares_oweFinal _ _ hj)).trans
      ((spares_unlinkOrder ..).trans ((spares_putLive none _ hj).trans (.of_eq rfl rfl)))
  · exact (unlinkOrder_zones ..).trans (freeShelves_zones k s)

/-- The record of a MOVE that is PENDING again (03 R62). -/
def pendingAgain (o : OrderRec) : OrderRec :=
  { o with state := .pending, stale := false, vehicle := none, assigned := none, chosen := none, shelfChosen := false }

theorem repend_eq (ho : orderAt s k = some o) :
    repend k s = putOrder k (pendingAgain o) (unlinkOrder k o.vehicle (freeShelves k s)) := by rw [repend, ho]; rfl

theorem releases_repend (hs : Sound s) (ho : orderAt s k = some o) : Releases k o s (repend k s) := by
  refine ⟨repend_sound _ hs, fun v => ?_, fun j hj => ?_, ?_⟩ <;> rw [repend_eq ho]
  · exact (veh_unlinkOrder (freeShelves_sound _ hs) k o.vehicle v).trans (by rw [veh_congr (freeShelves_flt k s)])
  · exact (spares_freeShelves ..).trans ((spares_unlinkOrder ..).trans (spares_putLive _ _ hj))
  · exact (unlinkOrder_zones ..).trans (freeShelves_zones k s)

/-- The record of a MOVE that fails: a cancel deferred until now comes too late (03 R61, R67). -/
def cancelLate (o : OrderRec) : OrderRec := { o with cancelTooLate := o.cancelTooLate || o.cancelDeferred }

theorem failMove_eq (ho : orderAt s k = some o) (reason : Reason) (place : Place) :
    failMove k reason place s = finishOrder k .failed (some reason) place (putOrder k (cancelLate o) s) := by
  rw [failMove, modOrder_of_orderAt ho]; rfl

theorem releases_failMove (hs : Sound s) (ho : orderAt s k = some o) (reason : Reason) (place : Place) :
    Releases k o s (failMove k reason place s) := by
  rw [failMove_eq ho]
  have h := releases_finishOrder (putOrder_sound k _ hs) (orderAt_putOrder s k (cancelLate o)) .failed (some reason) place
  exact ⟨h.sound, h.vehicle, fun j hj => (spares_putLive _ s hj).trans (h.others j hj), h.zones⟩

theorem failMove_gone (hs : Sound s) (ho : orderAt s k = some o) (reason : Reason) (place : Place) :
    Gone (failMove k reason place s) k
      (moveFinal { o with cancelTooLate := o.cancelTooLate || o.cancelDeferred, ended := some s.clock }
        .failed (some reason) 0 place) := by
  rw [failMove_eq ho]
  exact finishOrder_gone (putOrder_sound k _ hs) (orderAt_putOrder s k (cancelLate o)) .failed (some reason) place

end Sys2Proof.Machine
end

section
/-! A vehicle that goes FAULTED or LOST: what becomes of its orders, its JOG, its park node and its cycle (03 R61; 05 R102,
R112 to R114). -/

namespace Sys2Proof.Machine

variable {s t : State} {v k j : Nat} {o : OrderRec}

/-! ### The current order -/

/-- Whether the HOIST of a record's cycle has been sent, and whether every send of it was answered BUSY (05 R107; log 16). -/
def everSent (r : Vehicle) : Bool := r.hoist.any (fun h => h.firstSend.isSome)
def onlyBusy (r : Vehicle) : Bool := r.hoist.any (fun h => h.allBusy && !decide (h.phase = .awaiting))

theorem currentOut_none (h : ∀ k, (veh s v).current = some k → orderAt s k = none) (reason : Reason) :
    currentOut v reason s = s := by
  unfold currentOut
  dsimp only
  split
  · rfl
  · next k hk => rw [h k hk]

theorem currentOut_some (hk : (veh s v).current = some k) (ho : orderAt s k = some o) (reason : Reason) :
    currentOut v reason s = match o.state with
      | .carrying => failMove k reason .vehicle s
      | .picking =>
        if everSent (veh s v) = true then failMove k reason (if onlyBusy (veh s v) = true then .source else .unknown) s
        else if o.cancelDeferred = true then finishOrder k .cancelled none .source s
        else repend k s
      | .placing => failMove k reason
        (if everSent (veh s v) = true then if onlyBusy (veh s v) = true then .vehicle else .unknown else .vehicle) s
      | _ => repend k s := by
  unfold currentOut
  dsimp only
  rw [hk]
  dsimp only
  rw [ho]
  dsimp only
  cases o.state
  case picking => rcases hh : (veh s v).hoist with _ | h <;> simp [everSent, onlyBusy, cycleSent, sentPlace, hh]
  case placing => rcases hh : (veh s v).hoist with _ | h <;> simp [everSent, onlyBusy, cycleSent, sentPlace, hh]
  all_goals rfl

theorem releases_currentOut (hs : Sound s) (hk : (veh s v).current = some k) (ho : orderAt s k = some o) (reason : Reason) :
    Releases k o s (currentOut v reason s) := by
  rw [currentOut_some hk ho]
  split
  · exact releases_failMove hs ho _ _
  · split
    · exact releases_failMove hs ho _ _
    · split
      · exact releases_finishOrder hs ho _ _ _
      · exact releases_repend hs ho
  · exact releases_failMove hs ho _ _
  · exact releases_repend hs ho

/-! ### Orders handed back -/

/-- From `s` to `t` the vehicle gives up the order that it held in one of its two places, if that is a live MOVE: no other slot
changes, and of its record at most the orders and the cycle. -/
structure HandsBack (v : Nat) (held : Option Nat) (s t : State) : Prop where
  sound : Sound t
  record : ∃ c h ch, veh t v = { veh s v with current := c, hoist := h, chained := ch }
  current : (veh s v).current = none → (veh t v).current = none
  chained : (veh s v).chained ≠ held → (veh t v).chained = (veh s v).chained
  others : ∀ j, held ≠ some j ∨ orderAt s j = none → Spares j s t
  zones : t.zones = s.zones

theorem HandsBack.refl (hs : Sound s) (v : Nat) (held : Option Nat) : HandsBack v held s s :=
  ⟨hs, ⟨_, _, _, rfl⟩, id, fun _ => rfl, fun j _ => .refl j s, rfl⟩

theorem Releases.handsBack (h : Releases k o s t) (ho : orderAt s k = some o) (v : Nat) : HandsBack v (some k) s t := by
  have hrecord := h.vehicle v
  refine ⟨h.sound, ?_, fun hnone => ?_, fun hne => ?_, fun j hj => h.others j ?_, h.zones⟩
  · rw [hrecord]
    split <;> exact ⟨_, _, _, rfl⟩
  · rw [hrecord]
    split
    · exact if_neg (by simp [hnone]) |>.trans hnone
    · exact hnone
  · rw [hrecord]
    split
    · exact if_neg hne
    · rfl
  · rintro rfl
    simp [ho] at hj

theorem currentOut_handsBack (hs : Sound s) (v : Nat) (reason : Reason) :
    HandsBack v (veh s v).current s (currentOut v reason s) := by
  by_cases h : ∃ k o, (veh s v).current = some k ∧ orderAt s k = some o
  · obtain ⟨k, o, hk, ho⟩ := h
    rw [hk]
    exact (releases_currentOut hs hk ho reason).handsBack ho v
  · have hnone : ∀ k, (veh s v).current = some k → orderAt s k = none :=
      fun k hk => Option.eq_none_iff_forall_ne_some.2 fun o ho => h ⟨k, o, hk, ho⟩
    rw [currentOut_none hnone]
    exact .refl hs v _

theorem rependChained_handsBack (hs : Sound s) (v : Nat) : HandsBack v (veh s v).chained s (rependChained v s) := by
  unfold rependChained
  split
  · next k hk =>
    rw [hk]
    rcases ho : orderAt s k with _ | o
    · rw [repend, ho]
      exact .refl hs v _
    · exact (releases_repend hs ho).handsBack ho v
  · exact .refl hs v _

/-! ### The JOG -/

theorem veh_failJog (hs : Sound s) (v : Nat) (reason : Reason) :
    veh (failJog v reason s) v = { veh s v with jog := none } := by
  unfold failJog
  split
  · rw [(endDirective_sound _ _ _ _ _ hs).veh_modVeh, veh_congr (endDirective_flt ..)]
  · next h => rw [← h]

theorem failJog_zones (v : Nat) (reason : Reason) (s : State) : (failJog v reason s).zones = s.zones := by
  unfold failJog endDirective
  split
  · refine (putVeh_zones ..).trans ?_
    split <;> rfl
  · rfl

theorem spares_failJog (h : ∀ d, liveAt s j ≠ some (.directive d)) (v : Nat) (reason : Reason) :
    Spares j s (failJog v reason s) := by
  unfold failJog
  split
  · next x _ =>
    refine Spares.trans ?_ (spares_putVeh ..)
    unfold endDirective
    split
    · next d hd =>
      have hne : j ≠ x.slot := by rintro rfl; exact h d hd
      exact (spares_putLive none s hne).trans (spares_oweFinal _ _ hne)
    · exact .refl j s
  · exact .refl j s

/-- The result of a JOG that fails (05 R102). -/
def jogFailed (d : DirRec) (now : Time) (reason : Reason) : Final :=
  { progress := dirProgress d.seq d.taken (some now), code := .failed, reason := some reason, flags := 0, detail := 0,
    place := .none_, readId := none, vehicle := none, dest := none, tag := d.tag }

theorem failJog_gone (hs : Sound s) {x : Jog} {d : DirRec} (hx : (veh s v).jog = some x)
    (hd : liveAt s x.slot = some (.directive d)) (reason : Reason) :
    Gone (failJog v reason s) x.slot (jogFailed d s.clock reason) := by
  have hends : endDirective x.slot .failed (some reason) 0 0 s =
      oweFinal x.slot (jogFailed d s.clock reason) (putLive x.slot none s) := by rw [endDirective, hd]; rfl
  rw [failJog, hx]
  dsimp only
  rw [hends]
  have hgone : Gone (oweFinal x.slot (jogFailed d s.clock reason) (putLive x.slot none s)) x.slot (jogFailed d s.clock reason) :=
    ⟨hs.liveAt_putLive x.slot none, slotDueAt_putSlotDue _ _ (by simp)⟩
  exact hgone.spared (spares_putVeh ..)

/-! ### Out of service -/

/-- The part once the orders of a vehicle are out of its hands (03 R61). -/
def handedBack (v : Nat) (reason : Reason) (s : State) : State := rependChained v (currentOut v reason s)

theorem handedBack_sound (hs : Sound s) (v : Nat) (reason : Reason) : Sound (handedBack v reason s) :=
  rependChained_sound _ (currentOut_sound _ _ hs)

theorem handedBack_record (hs : Sound s) (v : Nat) (reason : Reason) :
    ∃ c h ch, veh (handedBack v reason s) v = { veh s v with current := c, hoist := h, chained := ch } := by
  have hfirst := currentOut_handsBack hs v reason
  obtain ⟨c, h, ch, hrecord⟩ := hfirst.record
  obtain ⟨c', h', ch', hrecord'⟩ := (rependChained_handsBack hfirst.sound v).record
  exact ⟨c', h', ch', by rw [handedBack, hrecord', hrecord]⟩

/-- A record that has lost its park node, target and marks (05 R112, step 3). -/
def cleared (r : Vehicle) : Vehicle :=
  unmark { r with park := none, target := none, circulating := false, retiring := false }

theorem outOfService_eq (v : Nat) (reason : Reason) (s : State) :
    let t := failJog v reason (endCycle v (handedBack v reason s))
    outOfService v reason s = push (.revise v :: offerOf (veh t v).park) (modVeh v cleared t) := rfl

theorem veh_jogFailed (hs : Sound s) (v : Nat) (reason : Reason) :
    veh (failJog v reason (endCycle v (handedBack v reason s))) v =
      { veh (handedBack v reason s) v with hoist := none, jog := none } := by
  have hback := handedBack_sound hs v reason
  rw [veh_failJog (endCycle_sound v hback), hback.veh_endCycle]

theorem veh_outOfService (hs : Sound s) (v : Nat) (reason : Reason) :
    veh (outOfService v reason s) v = cleared { veh (handedBack v reason s) v with hoist := none, jog := none } := by
  have hsound := failJog_sound v reason (endCycle_sound v (handedBack_sound hs v reason))
  have hpush (ts : List Task) (t : State) : veh (push ts t) v = veh t v := rfl
  rw [outOfService_eq, hpush, hsound.veh_modVeh, veh_jogFailed hs]

theorem outOfService_zones (hs : Sound s) (v : Nat) (reason : Reason) : (outOfService v reason s).zones = s.zones := by
  have hfirst := currentOut_handsBack hs v reason
  have hsecond := rependChained_handsBack hfirst.sound v
  rw [outOfService_eq, push_zones, modVeh, putVeh_zones, failJog_zones, endCycle_zones, handedBack, hsecond.zones, hfirst.zones]

theorem currentOut_agenda (v : Nat) (reason : Reason) (s : State) : (currentOut v reason s).agenda = s.agenda := by
  unfold currentOut; dsimp only; (repeat' split) <;> simp
theorem failJog_agenda (v : Nat) (reason : Reason) (s : State) : (failJog v reason s).agenda = s.agenda := by
  unfold failJog; split <;> simp

/-- A vehicle out of service has its wait revised, and its park node is offered (05 R112; 06 R127). -/
theorem outOfService_agenda (hs : Sound s) (v : Nat) (reason : Reason) :
    (outOfService v reason s).agenda = s.agenda ++ .revise v :: offerOf (veh s v).park := by
  obtain ⟨c, h, ch, hrecord⟩ := handedBack_record hs v reason
  rw [outOfService_eq, push_agenda, modVeh_agenda, failJog_agenda, endCycle_agenda, handedBack, rependChained_agenda,
    currentOut_agenda, ← handedBack, veh_jogFailed hs, hrecord]

/-- Once its orders are out of the vehicle's hands, no slot changes but that of its JOG. -/
theorem spares_withdrawal (h : ∀ d, liveAt (handedBack v reason s) j ≠ some (.directive d)) :
    Spares j (handedBack v reason s) (outOfService v reason s) := by
  have hcycle : Spares j (handedBack v reason s) (endCycle v (handedBack v reason s)) := spares_endCycle ..
  refine (hcycle.trans (spares_failJog (fun d hd => h d (hcycle.directive_iff.1 hd)) v reason)).trans ?_
  rw [outOfService_eq]
  exact (spares_putVeh ..).trans (spares_push ..)

end Sys2Proof.Machine
end

section
/-! The expiries of the link, and a vehicle FAULTED or LOST (05 R112, R113; 08 R163, R166). -/

namespace Sys2Proof.Machine

variable {s t : State} {v k j : Nat} {o : OrderRec}

/-! ### The expiries -/

/-- The reply window has run or not; a resend is for a cycle that is AWAITING (08 R163; log 49). -/
theorem replyWaitExpires_eq (v : Nat) (s : State) : replyWaitExpires v s =
    let l := linkAt s v
    let s1 := putLink v { l with replyWait := none } s
    let s2 := modVeh v (fun r => { r with hoist := r.hoist.map (fun h => { h with allBusy := false }) }) s1
    match l.replyWait with
    | none => s
    | some t =>
      if elapsed s.clock t < s.map.globals.replyWindow then s
      else if (veh s v).hoist.any (fun h => decide (h.phase = .awaiting)) = false then s1
      else if 3 ≤ l.sends then enterFaulted v .noReply s2
      else queueHoist v s2 := by
  unfold replyWaitExpires
  dsimp only
  rcases (linkAt s v).replyWait with _ | t
  · rfl
  · refine ite_congr_iff Iff.rfl rfl ?_
    rcases hwaits : awaiting s v
    · exact (if_neg (by simp)).trans (if_pos hwaits).symm
    · exact (if_pos rfl).trans (if_neg (by simpa [awaiting] using hwaits)).symm

/-! ### A vehicle with nothing in hand -/

theorem putVeh_beside (v : Nat) (r : Vehicle) (l : Tsl) (ts : List Task) (s : State) :
    putVeh v r { s with tsl := l, agenda := ts } = { putVeh v r s with tsl := l, agenda := ts } := by
  have hveh : veh { s with tsl := l, agenda := ts } v = veh s v := rfl
  unfold putVeh
  rw [hveh]
  dsimp only
  (repeat' split) <;> rfl

/-- Of two writes of a vehicle record the first does not matter where it is no news to DSP. -/
theorem putVeh_after {r : Vehicle} (r' : Vehicle) (hr : r ≠ {}) (hstate : r.state = (veh s v).state)
    (huncertain : r.uncertain = (veh s v).uncertain) (hquarantined : r.quarantined = (veh s v).quarantined)
    (hchained : r.chained = (veh s v).chained) : putVeh v r' (putVeh v r s) = putVeh v r' s := by
  have hread : veh (putVeh v r s) v = r := veh_putVeh s v hr
  have hfirst : putVeh v r s = { s with flt := { s.flt with vehicles := tset {} s.flt.vehicles v r } } := by
    have hnoAvail : availChange (veh s v) r = false := by simp [availChange, hstate, huncertain, hquarantined, hchained]
    have hnoLeave : leavesWindow (veh s v) r = false := by simp +contextual [leavesWindow, hstate, hchained]
    simp [putVeh, hnoAvail, hnoLeave]
  have havail : availChange r r' = availChange (veh s v) r' := by
    simp only [availChange, hstate, huncertain, hquarantined, hchained]
  have hleave : leavesWindow r r' = leavesWindow (veh s v) r' := by simp only [leavesWindow, hstate, hchained]
  rw [hfirst] at hread ⊢
  unfold putVeh
  dsimp only
  rw [hread, havail, hleave, tset_tset _ _ _ _ hr]

/-- A record out of service, in the state it goes to. -/
def wentTo (st : VState) (c : FaultCode) (r : Vehicle) : Vehicle := { r with
  state := st, fault := c, target := none, circulating := false, retiring := false,
  pos := r.pos.map (fun p => { p with measurable := false }) }

/-- A record out of service whose state is then written, with what the link does in between. -/
theorem modVeh_cleared (hstate : (veh s v).state ≠ .offline) {f : Vehicle → Vehicle} {r : Vehicle}
    (hf : f (cleared (veh s v)) = r) (l : Tsl) (ts : List Task) :
    modVeh v f { putVeh v (cleared (veh s v)) s with tsl := l, agenda := ts } = { putVeh v r s with tsl := l, agenda := ts } := by
  have hne : cleared (veh s v) ≠ {} := fun e => hstate (congrArg Vehicle.state e)
  have hread : veh { putVeh v (cleared (veh s v)) s with tsl := l, agenda := ts } v = cleared (veh s v) := veh_putVeh s v hne
  rw [modVeh, hread, hf, putVeh_beside, putVeh_after _ hne rfl rfl rfl rfl]

section
variable (hquiet : Quiet s) (hstate : (veh s v).state ≠ .offline) (hcurrent : (veh s v).current = none)
  (hchained : (veh s v).chained = none) (hjog : (veh s v).jog = none) (hpark : (veh s v).park = none)
  (hhoist : (veh s v).hoist = none)
include hquiet hcurrent hchained hjog hpark hhoist

theorem outOfService_bare (reason : Reason) : outOfService v reason s =
    { putVeh v (cleared (veh s v)) s with agenda := [.revise v] } := by
  have hback : handedBack v reason s = s := by
    rw [handedBack, currentOut_none (by simp [hcurrent]), rependChained, hchained]
  have hjogged : failJog v reason (endCycle v s) = s := by
    rw [endCycle, hhoist]
    dsimp only
    rw [failJog, hjog]
  rw [outOfService_eq, hback, hjogged, hpark]
  have hquiet' : Quiet (putVeh v (cleared (veh s v)) s) := (putVeh_agenda ..).trans hquiet
  exact push_quiet hquiet' _

include hstate

theorem enterFaulted_bare (code : FaultCode) : enterFaulted v code s =
    { queueStand v (putVeh v (wentTo .faulted code (veh s v)) s) with agenda := [.revise v] } := by
  have hrecord : { cleared (veh s v) with state := .faulted, fault := code } = wentTo .faulted code (veh s v) := by
    simp only [cleared, unmark, wentTo, hpark]
  rw [enterFaulted, outOfService_bare hquiet hcurrent hchained hjog hpark hhoist, queueStand_eq, queueStand_eq]
  refine (modVeh_cleared hstate hrecord _ _).trans ?_
  rw [putVeh_tsl, putVeh_tsl]

theorem enterLost_bare : enterLost v s =
    { putVeh v (wentTo .lost (veh s v).fault (veh s v)) s with
      tsl := { s.tsl with
        grantQueue := s.tsl.grantQueue.filter (fun p => !decide (p.1 = v)),
        hoistQueue := s.tsl.hoistQueue.filter (fun p => !decide (p.1 = v)),
        links := tset {} s.tsl.links v { linkAt s v with lastSent := .none_, replyWait := none, silence := none },
        tx := s.tsl.tx.map (fun x => match x.frame with
          | .hoist _ => if x.vehicle = v then { x with noWait := true } else x
          | _ => x) },
      agenda := [.revise v] } := by
  have hrecord : { cleared (veh s v) with state := .lost } = wentTo .lost (veh s v).fault (veh s v) := by
    simp only [cleared, unmark, wentTo, hpark]
  have hlost : modVeh v (fun r => { r with state := .lost }) (outOfService v .vehicleLost s) =
      { putVeh v (wentTo .lost (veh s v).fault (veh s v)) s with agenda := [.revise v] } := by
    rw [outOfService_bare hquiet hcurrent hchained hjog hpark hhoist]
    refine (modVeh_cleared (f := fun r => { r with state := .lost }) hstate hrecord _ _).trans ?_
    simp only [putVeh_tsl]
  have htsl : (putVeh v (wentTo .lost (veh s v).fault (veh s v)) s).tsl = s.tsl := putVeh_tsl ..
  rw [enterLost, hlost, voidHoist_eq]
  generalize putVeh v (wentTo .lost (veh s v).fault (veh s v)) s = u at htsl
  rw [← htsl, ← linkAt_congr htsl v]
  rfl

end

/-! ### Going out of service -/

/-- From `u`, in which the vehicle is out of service, to `t` its record goes to a state; no slot, zone or request changes. -/
structure GoesTo (v : Nat) (u t : State) : Prop where
  record : ∃ st c, veh t v = { veh u v with state := st, fault := c }
  slots : ∀ j, Spares j u t
  zones : t.zones = u.zones
  agenda : t.agenda = u.agenda

theorem enterFaulted_goesTo (hs : Sound s) (v : Nat) (code : FaultCode) :
    GoesTo v (outOfService v .vehicleFault s) (enterFaulted v code s) := by
  have hout := outOfService_sound v .vehicleFault hs
  refine ⟨⟨.faulted, code, ?_⟩, fun j => ?_, ?_, ?_⟩
  · rw [enterFaulted, (queueStand_sound v hout).veh_modVeh, veh_congr (queueStand_flt ..)]
  · rw [enterFaulted, modVeh]
    exact (Spares.of_eq (queueStand_orders ..) (queueStand_win ..)).trans (spares_putVeh ..)
  · rw [enterFaulted, modVeh, putVeh_zones, queueStand_zones]
  · rw [enterFaulted, modVeh_agenda, queueStand_agenda]

theorem enterLost_goesTo (hs : Sound s) (v : Nat) : GoesTo v (outOfService v .vehicleLost s) (enterLost v s) := by
  have hout := outOfService_sound v .vehicleLost hs
  obtain ⟨l, hlost⟩ : ∃ l, enterLost v s =
      { modVeh v (fun r => { r with state := .lost }) (outOfService v .vehicleLost s) with tsl := l } := by
    rw [enterLost]
    generalize modVeh v _ (outOfService v .vehicleLost s) = u
    rw [voidHoist_eq]
    exact ⟨_, rfl⟩
  rw [hlost]
  generalize outOfService v .vehicleLost s = u at hout
  have hrecord : veh (modVeh v (fun r => { r with state := .lost }) u) v = { veh u v with state := .lost } := hout.veh_modVeh ..
  have hzones : (modVeh v (fun r => { r with state := .lost }) u).zones = u.zones := putVeh_zones ..
  have hagenda : (modVeh v (fun r => { r with state := .lost }) u).agenda = u.agenda := modVeh_agenda ..
  refine ⟨⟨.lost, (veh u v).fault, hrecord⟩, fun j => ?_, hzones, hagenda⟩
  exact (spares_putVeh j v _ u).trans (.of_eq rfl rfl)

theorem goesTo_of_mem (hs : Sound s) {code : FaultCode} {out : State × Reason}
    (hout : out ∈ [(enterFaulted v code s, Reason.vehicleFault), (enterLost v s, Reason.vehicleLost)]) :
    GoesTo v (outOfService v out.2 s) out.1 := by
  simp only [List.mem_cons, List.not_mem_nil, or_false] at hout
  rcases hout with rfl | rfl <;> dsimp only
  · exact enterFaulted_goesTo hs v code
  · exact enterLost_goesTo hs v

/-! ### The orders of a vehicle out of service -/

/-- What a slot holds once the current order is out of the vehicle's hands stays, unless its order is chained to the vehicle
or it holds a directive. -/
theorem spares_outOfService (hs : Sound s) {reason : Reason}
    (hchained : (veh (currentOut v reason s) v).chained ≠ some k ∨ orderAt (currentOut v reason s) k = none)
    (hdir : ∀ d, liveAt (currentOut v reason s) k ≠ some (.directive d)) :
    Spares k (currentOut v reason s) (outOfService v reason s) := by
  have hback : Spares k (currentOut v reason s) (handedBack v reason s) :=
    (rependChained_handsBack (currentOut_sound v reason hs) v).others k hchained
  exact hback.trans (spares_withdrawal fun d hd => hdir d (hback.directive_iff.1 hd))

theorem not_directive_of_orderAt (h : orderAt s k = some o) (d : DirRec) : liveAt s k ≠ some (.directive d) := by
  rw [orderAt_eq_some.1 h]
  simp

theorem Gone.not_directive {f : Final} (h : Gone s k f) (d : DirRec) : liveAt s k ≠ some (.directive d) := by
  rw [h.1]
  simp

theorem orderAt_repend (ho : orderAt s k = some o) : orderAt (repend k s) k = some (pendingAgain o) := by
  rw [repend_eq ho, orderAt_putOrder]

theorem currentOut_not_directive (hs : Sound s) (hk : (veh s v).current = some k) (ho : orderAt s k = some o)
    (reason : Reason) (d : DirRec) : liveAt (currentOut v reason s) k ≠ some (.directive d) := by
  have hfails (place : Place) := (failMove_gone hs ho reason place).not_directive d
  have hagain := not_directive_of_orderAt (orderAt_repend ho) d
  rw [currentOut_some hk ho]
  split
  · exact hfails _
  · split
    · exact hfails _
    · split
      · exact (finishOrder_gone hs ho _ _ _).not_directive d
      · exact hagain
  · exact hfails _
  · exact hagain

section
variable {reason : Reason} (hs : Sound s) (ht : GoesTo v (outOfService v reason s) t)
include hs ht

theorem GoesTo.veh_eq : ∃ st c, veh t v =
    { cleared { veh (handedBack v reason s) v with hoist := none, jog := none } with state := st, fault := c } := by
  obtain ⟨st, c, hrecord⟩ := ht.record
  exact ⟨st, c, by rw [hrecord, veh_outOfService hs]⟩

/-- The current order is out of the vehicle's hands, as `currentOut` leaves it. -/
theorem GoesTo.current_out (hk : (veh s v).current = some k) (hchained : (veh s v).chained ≠ some k)
    (ho : orderAt s k = some o) (hv : o.vehicle = some v) :
    (veh t v).current = none ∧ Spares k (currentOut v reason s) t := by
  have hreleases := releases_currentOut hs hk ho reason
  have hrecord : veh (currentOut v reason s) v = gaveUp k (veh s v) := (hreleases.vehicle v).trans (if_pos hv)
  have hnone : (veh (currentOut v reason s) v).current = none := by rw [hrecord]; exact if_pos hk
  have hother : (veh (currentOut v reason s) v).chained ≠ some k := by
    rw [hrecord]
    exact fun e => hchained ((if_neg hchained).symm.trans e)
  refine ⟨?_, (spares_outOfService hs (.inl hother) (currentOut_not_directive hs hk ho reason)).trans (ht.slots k)⟩
  obtain ⟨st, c, hveh⟩ := ht.veh_eq hs
  rw [hveh]
  exact (rependChained_handsBack hreleases.sound v).current hnone

/-- The chained order is PENDING again. -/
theorem GoesTo.chained_again (hk : (veh s v).chained = some k) (hcurrent : (veh s v).current ≠ some k)
    (ho : orderAt s k = some o) (hv : o.vehicle = some v) :
    (veh t v).chained = none ∧ orderAt t k = some (pendingAgain o) := by
  have hfirst := currentOut_handsBack hs v reason
  have hstill : (veh (currentOut v reason s) v).chained = some k :=
    (hfirst.chained (fun e => hcurrent (e.symm.trans hk))).trans hk
  obtain ⟨o', ho', hv', hsame⟩ : ∃ o', orderAt (currentOut v reason s) k = some o' ∧ o'.vehicle = some v ∧
      pendingAgain o' = pendingAgain o := by
    rcases (hfirst.others k (.inl hcurrent)).order ho with h | h
    · exact ⟨_, h, hv, rfl⟩
    · exact ⟨_, h, hv, rfl⟩
  have hback : handedBack v reason s = repend k (currentOut v reason s) := by rw [handedBack, rependChained, hstill]
  have hagain : orderAt (handedBack v reason s) k = some (pendingAgain o) := by rw [hback, orderAt_repend ho', hsame]
  have hslot := (spares_withdrawal (not_directive_of_orderAt hagain)).trans (ht.slots k)
  refine ⟨?_, hslot.fresh hagain rfl⟩
  obtain ⟨st, c, hveh⟩ := ht.veh_eq hs
  rw [hveh, hback]
  have hrecord := (releases_repend hfirst.sound ho').vehicle v
  rw [if_pos hv'] at hrecord
  rw [hrecord]
  exact if_pos hstill

/-- The JOG fails. -/
theorem GoesTo.jog_fails {x : Jog} {d : DirRec} (hx : (veh s v).jog = some x) (hd : liveAt s x.slot = some (.directive d)) :
    Gone t x.slot (jogFailed d s.clock reason) := by
  have hno : orderAt s x.slot = none := by rw [orderAt, hd]
  have hfirst := currentOut_handsBack hs v reason
  have hsparesFirst := hfirst.others x.slot (.inr hno)
  have hspares : Spares x.slot s (handedBack v reason s) :=
    hsparesFirst.trans ((rependChained_handsBack hfirst.sound v).others x.slot (.inr (hsparesFirst.not_order hno)))
  have hback := handedBack_sound hs v reason
  have hcycle := endCycle_sound v hback
  obtain ⟨c, h, ch, hrecord⟩ := handedBack_record hs v reason
  have hjog : (veh (endCycle v (handedBack v reason s)) v).jog = some x := by rw [hback.veh_endCycle, hrecord]; exact hx
  have hlive : liveAt (endCycle v (handedBack v reason s)) x.slot = some (.directive d) :=
    (hspares.trans (spares_endCycle ..)).directive_iff.2 hd
  have hclock : (endCycle v (handedBack v reason s)).clock = s.clock := by simp [handedBack]
  have hgone := failJog_gone hcycle hjog hlive reason
  rw [hclock] at hgone
  refine hgone.spared (Spares.trans ?_ (ht.slots x.slot))
  rw [outOfService_eq]
  exact (spares_putVeh ..).trans (spares_push ..)

end

/-! ### The statement -/

/-- Settles O50: the expiries by their timers, a bare vehicle's two ends, and any vehicle's orders, JOG, park node and cycle. -/
theorem linkTimersResendOrReport : Obligations.LinkTimersResendOrReport := by
  unfold Obligations.LinkTimersResendOrReport
  refine ⟨fun v s hquiet => ?expiries, fun v code s hquiet hstate hcurrent hchained hjog hpark hhoist => ?bare,
    fun v code s hs hstate out hout => ?orders⟩
  case expiries =>
    exact ⟨event_settle_of (replyWaitExpires_eq v s), event_settle_of rfl⟩
  case bare =>
    exact ⟨enterFaulted_bare hquiet hstate hcurrent hchained hjog hpark hhoist code,
      enterLost_bare hquiet hstate hcurrent hchained hjog hpark hhoist⟩
  case orders =>
    intro r t gone fails again sent busy
    have ht : GoesTo v (outOfService v out.2 s) t := by
      exact goesTo_of_mem hs hout
    clear_value t
    refine ⟨fun k o hk hchained ho hv => ?current, fun k o hk hcurrent ho hv => ht.chained_again hs hk hcurrent ho hv,
      fun j d hj hd => ht.jog_fails hs hj hd, ?record⟩
    case current =>
      obtain ⟨hnone, hslot⟩ := ht.current_out hs hk hchained ho hv
      have hout := currentOut_some hk ho out.2
      have hfails {place : Place} (h : currentOut v out.2 s = failMove k out.2 place s) : fails k o place :=
        (failMove_gone hs ho out.2 place).spared (h ▸ hslot)
      have hagain (h : currentOut v out.2 s = repend k s) : again k o :=
        Spares.fresh (h ▸ hslot) (orderAt_repend ho) rfl
      refine ⟨hnone, fun hassigned => ?_, fun hpicking hsent => ?_, fun hpicking hunsent hcancel => ?_,
        fun hpicking hunsent hkeep => ?_, fun hcarrying => ?_, fun hplacing => ?_⟩
      · exact hagain (by rw [hout, hassigned])
      · exact hfails (by rw [hout, hpicking]; exact if_pos hsent)
      · have hcancelled : currentOut v out.2 s = finishOrder k .cancelled none .source s := by
          rw [hout, hpicking]
          exact (if_neg (Bool.eq_false_iff.1 hunsent)).trans (if_pos hcancel)
        exact (finishOrder_gone hs ho .cancelled none .source).spared (hcancelled ▸ hslot)
      · refine hagain ?_
        rw [hout, hpicking]
        exact (if_neg (Bool.eq_false_iff.1 hunsent)).trans (if_neg (by simp [hkeep]))
      · exact hfails (by rw [hout, hcarrying])
      · refine hfails ?_
        have hplace : (if sent = true ∧ busy = false then Place.unknown else .vehicle) =
            if sent = true then if busy = true then .vehicle else .unknown else .vehicle := by
          cases sent <;> cases busy <;> rfl
        rw [hout, hplacing, hplace]
        rfl
    case record =>
      obtain ⟨c, h, ch, hback⟩ := handedBack_record hs v out.2
      obtain ⟨st, f, hveh⟩ := ht.veh_eq hs
      rw [hback] at hveh
      have hagenda : t.agenda = s.agenda ++ .revise v :: offerOf r.park := ht.agenda.trans (outOfService_agenda hs v out.2)
      rw [hveh, hagenda]
      refine ⟨rfl, rfl, rfl, rfl, rfl, ht.zones.trans (outOfService_zones hs v out.2), by simp, fun n hn => ?_⟩
      simp [hn, offerOf]

end Sys2Proof.Machine
end

section
/-! Ghost inference: a shelf read PRESENT is AMBIGUOUS where it is a corner of a rectangle read PRESENT (09 R174). -/

namespace Sys2Proof.Machine

variable {e : BayEntry} {rows : Table (Option Nat)} {r c r2 c2 : Nat}

/-- Another row and another column of the rack make with this shelf a rectangle whose other three corners were read
PRESENT. -/
def Cornered (e : BayEntry) (rows : Table (Option Nat)) (r c : Nat) : Prop :=
  ∃ r2 c2, r2 < e.rows ∧ c2 < e.cols ∧ r2 ≠ r ∧ c2 ≠ c ∧
    readPresent rows r c2 = true ∧ readPresent rows r2 c2 = true ∧ readPresent rows r2 c = true

/-- The search that `infer` makes finds a rectangle if there is one. -/
theorem search_iff_cornered : (List.range e.rows).any (fun r2 => (List.range e.cols).any (fun c2 =>
      !decide (r2 = r) && !decide (c2 = c) && readPresent rows r c2 && readPresent rows r2 c2 && readPresent rows r2 c)) = true ↔
    Cornered e rows r c := by
  simp only [List.any_eq_true, List.mem_range, Bool.and_eq_true, Bool.not_eq_true', decide_eq_false_iff_not, and_assoc,
    Cornered, exists_and_left]

theorem infer_absent (h : readPresent rows r c = false) : infer e rows r c = .empty := by simp [infer, h]

theorem infer_cornered (hp : readPresent rows r c = true) (h : Cornered e rows r c) : infer e rows r c = .ambiguous := by
  rw [infer, hp, Bool.not_true, if_neg Bool.false_ne_true, if_pos (search_iff_cornered.2 h)]

theorem infer_not_cornered (hp : readPresent rows r c = true) (h : ¬ Cornered e rows r c) : infer e rows r c = .present := by
  rw [infer, hp, Bool.not_true, if_neg Bool.false_ne_true, if_neg (mt search_iff_cornered.1 h)]

theorem infer_ne_ambiguous (h : ¬ Cornered e rows r c) : infer e rows r c ≠ .ambiguous := by
  cases hp : readPresent rows r c with
  | false => simp [infer_absent hp]
  | true => simp [infer_not_cornered hp h]

/-- One corner of a rectangle read PRESENT; the opposite corner gives the other row and column. -/
theorem infer_corner (hr : r2 < e.rows) (hc : c2 < e.cols) (hrow : r2 ≠ r) (hcol : c2 ≠ c)
    (h : readPresent rows r c = true) (hbeside : readPresent rows r c2 = true) (hopposite : readPresent rows r2 c2 = true)
    (hbelow : readPresent rows r2 c = true) : infer e rows r c = .ambiguous :=
  infer_cornered h ⟨r2, c2, hr, hc, hrow, hcol, hbeside, hopposite, hbelow⟩

/-- A rectangle needs a second row and a second column. -/
theorem not_cornered_of_line (h : (e.rows ≤ 1 ∧ r < e.rows) ∨ (e.cols ≤ 1 ∧ c < e.cols)) : ¬ Cornered e rows r c := by
  rintro ⟨r2, c2, hr2, hc2, hrow, hcol, -⟩
  rcases h with ⟨hone, hr⟩ | ⟨hone, hc⟩ <;> omega

/-- Settles O59: the readings as `scannedShelf` enters them, the inference by whether the shelf is a corner, the four
corners one by one. -/
theorem ghostInferenceFindsRectangles : Obligations.GhostInferenceFindsRectangles := by
  unfold Obligations.GhostInferenceFindsRectangles
  intro e rows r c p
  refine ⟨fun _ _ => ⟨rfl, rfl⟩, infer_absent, fun hp => ⟨infer_cornered hp, infer_not_cornered hp⟩, ?corners,
    fun hline => infer_ne_ambiguous (not_cornered_of_line hline)⟩
  intro r2 c2 hr hr2 hc hc2 hrow hcol h11 h12 h22 h21
  exact ⟨infer_corner hr2 hc2 hrow.symm hcol.symm h11 h12 h22 h21, infer_corner hr2 hc hrow.symm hcol h12 h11 h21 h22,
    infer_corner hr hc hrow hcol h22 h21 h11 h12, infer_corner hr hc2 hrow hcol.symm h21 h22 h12 h11⟩

end Sys2Proof.Machine
end

section
/-! The drop choice of a bay, and a reserved drop chosen anew (09 R179, R180). -/

namespace Sys2Proof.Machine

variable {s : State} {k n st v g b : Nat} {o o1 : OrderRec} {e : StationEntry}

/-! ### The choice -/

theorem claimDest_eq_none : claimDest s st = none ↔ ∀ p ∈ moves s, destStation p.2 ≠ some st := by
  simp [claimDest]

theorem choosable_iff : choosable s st = true ↔
    (shelfAt s st).sensed = some .empty ∧ (shelfAt s st).logical = .free ∧ (shelfAt s st).placed = false ∧
      stationClosed s st = false ∧ ∀ p ∈ moves s, destStation p.2 ≠ some st := by
  simp only [choosable, Bool.and_eq_true, decide_eq_true_eq, Bool.not_eq_true', Option.isNone_iff_eq_none, claimDest_eq_none,
    and_assoc]

theorem pickReady_iff : pickReady s st = true ↔ (shelfAt s st).logical = .free ∧
    ((shelfAt s st).sensed = some .present ∨ ((shelfAt s st).sensed = some .ambiguous ∧ (shelfAt s st).placed = true)) := by
  simp only [pickReady, Bool.and_eq_true, Bool.or_eq_true, decide_eq_true_eq]

/-- The stations of a rack rise in row-major order. -/
theorem rackOf_rising (s : State) (b : Nat) : (rackOf s b).Pairwise (· < ·) := by
  unfold rackOf
  split
  · split
    · exact List.pairwise_lt_range.map _ fun _ _ h => Nat.add_lt_add_left h _
    · exact .nil
  · exact .nil

/-- In a rising list the first element found is the lowest. -/
theorem find?_lowest {l : List Nat} {p : Nat → Bool} {x u : Nat} (hl : l.Pairwise (· < ·)) (h : l.find? p = some x)
    (hu : u ∈ l) (hpu : p u = true) : x ≤ u := by
  obtain ⟨-, before, after, rfl, hbefore⟩ := List.find?_eq_some_iff_append.1 h
  rcases List.mem_append.1 hu with hu | hu
  · have hnot : p u = false := by simpa using hbefore u hu
    exact absurd hpu (Bool.eq_false_iff.1 hnot)
  · rcases List.mem_cons.1 hu with rfl | hu
    · exact Nat.le_refl _
    · exact Nat.le_of_lt (List.rel_of_pairwise_cons (List.pairwise_append.1 hl).2.1 hu)

theorem dropChoice_lowest (h : dropChoice s b = some st) :
    st ∈ rackOf s b ∧ choosable s st = true ∧ ∀ u ∈ rackOf s b, choosable s u = true → st ≤ u :=
  ⟨List.mem_of_find?_eq_some h, List.find?_some h, fun _ hu => find?_lowest (rackOf_rising s b) h hu⟩

theorem dropChoice_none (h : dropChoice s b = none) : ∀ st ∈ rackOf s b, choosable s st = false := by
  simpa [dropChoice] using h

/-! ### The reservation -/

theorem shelfAt_reserveDrop (k st : Nat) (s : State) :
    shelfAt (reserveDrop k st s) st = { shelfAt s st with logical := .reservedDrop, reserving := some k } := by
  have hbuf (f : OrderRec → OrderRec) (t : State) : (modOrder k f t).buf = t.buf := by unfold modOrder; split <;> rfl
  rw [reserveDrop, shelfAt_congr (hbuf ..), shelfAt_putShelf]
  exact fun h => nomatch congrArg Shelf.logical h

/-- A change of a shelf leaves the destination of an order (04 R72). -/
theorem dest_putShelf (x : Shelf) (ho : orderAt s k = some o) :
    ∃ o1, orderAt (putShelf st x s) k = some o1 ∧ o1.dest = o.dest := by
  have hsame : orderButStale (putShelf st x s) k = orderButStale s k := ((Tells.refl s).putShelf st x).orders k
  rw [orderButStale, orderButStale, ho] at hsame
  obtain ⟨o1, ho1, heq⟩ := Option.map_eq_some_iff.1 hsame
  exact ⟨o1, ho1, (congrArg OrderRec.dest heq :)⟩

/-- A reserved shelf is its order's chosen shelf and destination (09 R179). -/
theorem chosen_reserveDrop (st : Nat) (ho : orderAt s k = some o) (hdest : o.dest = .buffer b) :
    ∃ o1, orderAt (reserveDrop k st s) k = some o1 ∧ o1.chosen = some st ∧ o1.shelfChosen = true ∧
      destStation o1 = some st := by
  obtain ⟨o1, ho1, hdest1⟩ := dest_putShelf (st := st) { shelfAt s st with logical := .reservedDrop, reserving := some k } ho
  refine ⟨{ o1 with chosen := some st, shelfChosen := true }, ?_, rfl, rfl, ?_⟩
  · rw [reserveDrop, modOrder_of_orderAt ho1, orderAt_putOrder]
  · simp [destStation, hdest1, hdest]

/-! ### The re-choice -/

/-- The part once a reserved shelf is free again. -/
def dropFreed (st : Nat) (s : State) : State := putShelf st { shelfAt s st with logical := .free, reserving := none } s

/-- What becomes of an order for which another shelf is reserved: with its carrier aboard, the vehicle goes to the shelf's
node (09 R180). -/
def shelfFound (k : Nat) (o : OrderRec) (goal : Option Nat) (t : State) : State := match o.state, o.vehicle, goal with
  | .carrying, some v, some g => setTarget v g t
  | .placing, some v, some g => setTarget v g (modOrder k (fun r => { r with state := .carrying }) (endCycle v t))
  | _, _, _ => t

/-- What becomes of an order for which no shelf is choosable (09 R180; log 24). -/
def shelfMissing (k : Nat) (o : OrderRec) (t : State) : State := match o.state, o.vehicle with
  | .carrying, some v => noShelf k v t
  | .placing, some v => noShelf k v t
  | _, _ => modOrder k (fun r => { r with chosen := none, shelfChosen := false }) t

theorem shelfFound_carrying {t : State} (hstate : o.state = .carrying) (hv : o.vehicle = some v) :
    shelfFound k o (some g) t = setTarget v g t := by simp only [shelfFound, hstate, hv]

theorem shelfFound_placing {t : State} (hstate : o.state = .placing) (hv : o.vehicle = some v) :
    shelfFound k o (some g) t = setTarget v g (modOrder k (fun r => { r with state := .carrying }) (endCycle v t)) := by
  simp only [shelfFound, hstate, hv]

theorem shelfFound_unloaded {goal : Option Nat} {t : State} (hcarrying : o.state ≠ .carrying) (hplacing : o.state ≠ .placing) :
    shelfFound k o goal t = t := by
  unfold shelfFound
  split
  · next h _ => exact absurd h hcarrying
  · next h _ => exact absurd h hplacing
  · rfl

theorem shelfMissing_aboard {t : State} (hstate : o.state = .carrying ∨ o.state = .placing) (hv : o.vehicle = some v) :
    shelfMissing k o t = noShelf k v t := by
  rcases hstate with hstate | hstate <;> simp only [shelfMissing, hstate, hv]

theorem shelfMissing_unloaded {t : State} (hcarrying : o.state ≠ .carrying) (hplacing : o.state ≠ .placing) :
    shelfMissing k o t = modOrder k (fun r => { r with chosen := none, shelfChosen := false }) t := by
  unfold shelfMissing
  split
  · next h _ => exact absurd h hcarrying
  · next h _ => exact absurd h hplacing
  · rfl

/-- A shelf is kept once the first HOIST of the UNLOAD has been taken: the cycle was sent, or is not QUEUED any more. -/
theorem keepsShelf_iff : keepsShelf s o = true ↔ o.state = .placing ∧
    (o.vehicle.bind (fun v => (veh s v).hoist)).any (fun h => h.sentOnce || !decide (h.phase = .queued)) = true := by
  rw [keepsShelf, Bool.and_eq_true, decide_eq_true_eq]
  cases o.vehicle.bind (fun v => (veh s v).hoist) <;> rfl

theorem rechoose_kept (hreserving : (shelfAt s st).reserving = some k) (ho : orderAt s k = some o)
    (hkeep : keepsShelf s o = true) : rechoose st s = s := by
  simp only [rechoose, hreserving, ho]
  exact if_pos (.inr hkeep)

section
variable (hlogical : (shelfAt s st).logical = .reservedDrop) (hreserving : (shelfAt s st).reserving = some k)
  (ho : orderAt s k = some o) (hst : stationAt s st = some e) (hkeep : ¬ keepsShelf s o = true)
include hlogical hreserving ho hst hkeep

/-- The shelf is freed, and another that is choosable is reserved. -/
theorem rechoose_found (hn : dropChoice (dropFreed st s) e.bay = some n) :
    rechoose st s = shelfFound k o (stationNode s n) (reserveDrop k n (dropFreed st s)) := by
  have hgo : ¬ ((shelfAt s st).logical ≠ .reservedDrop ∨ keepsShelf s o = true) := by simp [hlogical, hkeep]
  rw [dropFreed] at hn
  simp only [rechoose, hreserving, ho, if_neg hgo, hst, Option.map_some, Option.bind_some, hn]
  rfl

/-- The shelf is freed, and no shelf of the rack is choosable. -/
theorem rechoose_missing (hn : dropChoice (dropFreed st s) e.bay = none) :
    rechoose st s = shelfMissing k o (dropFreed st s) := by
  have hgo : ¬ ((shelfAt s st).logical ≠ .reservedDrop ∨ keepsShelf s o = true) := by simp [hlogical, hkeep]
  rw [dropFreed] at hn
  simp only [rechoose, hreserving, ho, if_neg hgo, hst, Option.map_some, Option.bind_some, hn]
  rfl

end

/-- An order left without a shelf has no chosen shelf, and with its carrier aboard fails so (log 24). -/
theorem noShelf_of_orderAt {t : State} (ho : orderAt t k = some o1) (v : Nat) :
    noShelf k v t = toHolding v (endCycle v (rependChained v (failMove k .destOccupied .vehicle
      (putOrder k { o1 with chosen := none, shelfChosen := false } t)))) := by
  rw [noShelf, modOrder_of_orderAt ho]

/-- Settles O60: the choice as the first choosable station of a rising rack, the reservation, and the re-choice by whether
the shelf is kept, another is choosable, and the carrier is aboard. -/
theorem theDropChoiceIsTheLowestShelf : Obligations.TheDropChoiceIsTheLowestShelf := by
  unfold Obligations.TheDropChoiceIsTheLowestShelf
  refine ⟨fun s b => ⟨fun _ => choosable_iff, fun _ => dropChoice_lowest, dropChoice_none, ?reserves, fun _ => pickReady_iff⟩,
    fun st k o e s _ hlogical hreserving ho hst => ?rechooses⟩
  case reserves =>
    intro k o st ho hdest _ t
    have hshelf : shelfAt t st = _ := shelfAt_reserveDrop k st s
    exact ⟨congrArg Shelf.logical hshelf, congrArg Shelf.reserving hshelf, chosen_reserveDrop st ho hdest⟩
  case rechooses =>
    intro freed cycle kept
    refine ⟨fun hkept => rechoose_kept hreserving ho (keepsShelf_iff.2 hkept), fun hgo o1 ho1 => ?_⟩
    have hkeep : ¬ keepsShelf s o = true := fun h => hgo (keepsShelf_iff.1 h)
    refine ⟨fun n hn => ?found, fun hn => ?missing⟩
    case found =>
      have hfound := rechoose_found hlogical hreserving ho hst hkeep hn
      refine ⟨fun hcarrying hplacing => hfound.trans (shelfFound_unloaded hcarrying hplacing), fun v g hv hg => ?_⟩
      rw [hg] at hfound
      exact ⟨fun hstate => hfound.trans (shelfFound_carrying hstate hv),
        fun hstate => hfound.trans (shelfFound_placing hstate hv)⟩
    case missing =>
      have hmissing := rechoose_missing hlogical hreserving ho hst hkeep hn
      exact ⟨fun hcarrying hplacing =>
          hmissing.trans ((shelfMissing_unloaded hcarrying hplacing).trans (modOrder_of_orderAt ho1 _)),
        fun v hv hstate => hmissing.trans ((shelfMissing_aboard hstate hv).trans (noShelf_of_orderAt ho1 v))⟩

end Sys2Proof.Machine
end

section
/-! What every step keeps (`Sound`): each command takes a sound state to a sound one, from the laws of its operations. -/

namespace Sys2Proof.Machine

theorem reset_sound : Sound State.reset where
  memory := rfl
  orders := rfl
  vehicles := rfl
  zones := rfl
  shelves := rfl
  links := rfl
  hot := ⟨Nat.zero_le _, fun r hr => absurd hr List.not_mem_nil⟩
  normal := ⟨Nat.zero_le _, fun r hr => absurd hr List.not_mem_nil⟩
  mask := by decide
  base := by decide
  check := Nat.zero_le _
  deferred := List.nodup_nil
  held := fun h => absurd h Bool.false_ne_true

/-- A reset is its own effect; every other command is an event of an operation that keeps `Sound`. -/
theorem exec_sound {s t : State} (c : Instr) (hs : Sound s) (h : exec c s = .next t) : Sound t := by
  cases c with
  | coldReset p => cases h; exact coldReset_sound p hs
  | warmReset w => cases h; exact warmReset_sound hs
  | start w | linkHoldSet w | linkHoldClear w | manualEnable w | ce w | cl w => exact event_sound (controlWrite_sound _ hs) h
  | startHeaderReadDone r => exact event_sound (headerDone_sound r hs) h
  | post w => exact event_sound (postNotice_sound w hs) h
  | holdRead => exact event_sound (holdRead_sound hs) h
  | holdClear w => exact event_sound (holdClear_sound hs) h
  | causeClear w => exact event_sound (causeClear_sound w hs) h
  | enableWrite w => exact event_sound (enableWrite_sound w hs) h
  | registerWrite off w => exact event_sound (registerStore_sound off w hs) h
  | windowWriteDone r ok => exact event_sound (writeDone_sound r ok hs) h
  | slotReadStart => exact event_sound (readStart_sound hs) h
  | slotReadDone r => exact event_sound (readDone_sound r hs) h
  | move | mapOpen | mapLoad | mapCommit | routePatch | fleetOpen | admitVehicle | retire | locate | release | jog | poolPolicy
  | zoneClose | zoneOpen | stationState => exact event_sound (takeRow_sound _ _ _ hs) h
  | mapLoadEntryReadDone r => exact event_sound (loadEntryDone_sound r hs) h
  | mapCommitValidationDone => exact event_sound (validationDone_sound hs) h
  | routePatchEntryReadDone r => exact event_sound (patchEntryDone_sound r hs) h
  | routePatchCheckDone => exact event_sound (patchCheckDone_sound hs) h
  | evaluationStart => exact event_sound (startEvaluation_sound hs) h
  | scoreStep => exact event_sound (scoreOne_sound hs) h
  | evaluationCompletion => exact event_sound (evaluationCompletes_sound hs) h
  | agingPeriodExpiry => exact event_sound (agingExpires_sound hs) h
  | pass | arrive | hoistReply | hoistEnd | status | scan => exact event_sound (receive_sound _ _ hs) h
  | busyRetryExpiry v => exact event_sound (busyRetryExpires_sound v hs) h
  | busyLimitExpiry v => exact event_sound (busyLimitExpires_sound v hs) h
  | endLimitExpiry v => exact event_sound (endLimitExpires_sound v hs) h
  | stallLimitExpiry z v => exact event_sound (stallExpires_sound z v hs) h
  | convoyExpiry m => exact event_sound (convoyExpires_sound m hs) h
  | transmitStart => exact event_sound (transmitTake_sound hs) h
  | grantSent => exact event_sound (grantLeaves_sound hs) h
  | hoistSent => exact event_sound (hoistLeaves_sound hs) h
  | standSent => exact event_sound (standLeaves_sound hs) h
  | replyWaitExpiry v => exact event_sound (replyWaitExpires_sound v hs) h
  | silenceExpiry v => exact event_sound (silenceExpires_sound v hs) h
  | rackSilenceExpiry b => exact event_sound (rackExpires_sound b hs) h
  | discardedFrame bs early => exact event_sound (receiveBytes_sound bs early hs) h

/-- Settles O4: field by field. -/
theorem resetIsSound : Obligations.ResetIsSound := reset_sound

/-- Settles O3: a step on an empty queue changes the clock alone; any other runs the command at the front. -/
theorem everyStepKeepsTheStateSound : Obligations.EveryStepKeepsTheStateSound := by
  unfold Obligations.EveryStepKeepsTheStateSound
  intro s t hs hstep
  rw [step] at hstep
  split at hstep
  next => cases hstep; exact hs.clock_update _
  next c rest _ => exact exec_sound c (hs.pending_update rest) hstep

end Sys2Proof.Machine
end

section
/-! The causes, the error log, and what the writes that fall due leave alone (10 R195 to R198). -/

namespace Sys2Proof.Machine

variable {s t u : State}

/-! ### Raised causes -/

theorem withCause_of_hasCause {cs : Causes} {c : Cause} (h : hasCause cs c = true) : withCause cs c true = cs := by
  obtain ⟨order, fleet, track, error, lane⟩ := cs
  cases c <;> · cases h; rfl

/-- A raised cause becomes pending, and sends its message if it was not pending and is enabled (10 R197). -/
theorem raiseCause_eq (c : Cause) (s : State) : raiseCause c s = { s with
    win := { s.win with cause := withCause s.win.cause c true },
    out := s.out ++ (if hasCause s.win.cause c = false ∧ hasCause s.win.enable c = true then [.message c] else []) } := by
  rw [raiseCause]
  by_cases hpending : hasCause s.win.cause c = true
  · simp [hpending, withCause_of_hasCause hpending]
  · by_cases henabled : hasCause s.win.enable c = true
    · simp [hpending, henabled]
    · simp [hpending, henabled]

/-- Raising causes changes CAUSE and what has left the part, nothing else. -/
theorem raiseCauses_eq (cs : Causes) (s : State) : ∃ p o, raiseCauses cs s = { s with win := { s.win with cause := p }, out := o } := by
  have hfold (l : List Cause) (s : State) : ∃ p o,
      l.foldl (fun t c => if hasCause cs c then raiseCause c t else t) s = { s with win := { s.win with cause := p }, out := o } := by
    induction l generalizing s with
    | nil => exact ⟨s.win.cause, s.out, rfl⟩
    | cons c l ih =>
      rw [List.foldl_cons, raiseCause_eq]
      split
      · obtain ⟨p, o, h⟩ := ih _
        exact ⟨p, o, h⟩
      · exact ih s
  exact hfold allCauses s

/-! ### The error log -/

/-- A full log keeps its record and sets MORE; CE is cleared (10 R198). -/
theorem logError_full {r : LogRecord} (h : s.win.log = some r) (kind : LogKind) (detail : Nat) :
    logError kind detail s = { s with win := { s.win with ce := false, log := some { r with more := true } } } := by
  simp [logError, h]

/-- The empty log once a record has filled it (10 R198). -/
def logFilled (kind : LogKind) (detail : Nat) (s : State) : State := { s with win := { s.win with
  ce := false, log := some { kind := kind, detail := detail, time := s.clock, more := false } } }

theorem logError_stopped (hlog : s.win.log = none) (h : s.win.engine ≠ .running) (kind : LogKind) (detail : Nat) :
    logError kind detail s = raiseCause .error (logFilled kind detail s) := by
  simp [logError, hlog, h, logFilled]

theorem logError_running (hlog : s.win.log = none) (h : s.win.engine = .running) (kind : LogKind) (detail : Nat) :
    logError kind detail s =
      { logFilled kind detail s with win := { (logFilled kind detail s).win with errorDue := true } } := by
  simp [logError, hlog, h, logFilled]

/-- Logging an error changes the log, CE, the status block's debt, CAUSE and what has left the part, nothing else. -/
theorem logError_eq (kind : LogKind) (detail : Nat) (s : State) : ∃ r e p o, logError kind detail s =
    { s with win := { s.win with ce := false, log := some r, errorDue := e, cause := p }, out := o } := by
  cases hlog : s.win.log with
  | some r => exact ⟨_, s.win.errorDue, s.win.cause, s.out, logError_full hlog kind detail⟩
  | none =>
    by_cases hengine : s.win.engine = .running
    · exact ⟨_, true, s.win.cause, s.out, logError_running hlog hengine kind detail⟩
    · exact ⟨_, s.win.errorDue, _, _, (logError_stopped hlog hengine kind detail).trans (raiseCause_eq ..)⟩

/-! ### Agreement -/

theorem Agree.refl (s : State) : Agree s s := ⟨rfl, rfl⟩
theorem Agree.trans (h : Agree s t) (h' : Agree t u) : Agree s u := ⟨h.1.trans h'.1, h.2.trans h'.2⟩

theorem Agree.window_eq (h : Agree s t) : s.window = t.window :=
  have e := congrArg State.window h.1; e
theorem Agree.agenda_eq (h : Agree s t) : s.agenda = t.agenda :=
  have e := congrArg State.agenda h.1; e
theorem Agree.hold_eq (h : Agree s t) : s.win.hold = t.win.hold :=
  have e := congrArg Win.hold h.2; e
theorem Agree.engine_eq (h : Agree s t) : s.win.engine = t.win.engine :=
  have e := congrArg Win.engine h.2; e

/-- A fold of operations each of which leaves the blocks alone does so. -/
theorem Agree.foldl {α : Type} {f : State → α → State} (hf : ∀ t a, Agree (f t a) t) (l : List α) (s : State) :
    Agree (l.foldl f s) s := by
  induction l generalizing s with
  | nil => exact .refl s
  | cons a l ih => exact (ih _).trans (hf s a)

theorem agree_raiseCauses (cs : Causes) (s : State) : Agree (raiseCauses cs s) s := by
  obtain ⟨p, o, h⟩ := raiseCauses_eq cs s
  rw [h]; exact ⟨rfl, rfl⟩

theorem agree_logError (kind : LogKind) (detail : Nat) (s : State) : Agree (logError kind detail s) s := by
  obtain ⟨r, e, p, o, h⟩ := logError_eq kind detail s
  rw [h]; exact ⟨rfl, rfl⟩

theorem agree_bumpRevision (r : WinRec) (s : State) : Agree (bumpRevision r s) s := by cases r <;> exact ⟨rfl, rfl⟩
theorem agree_clearDue (r : WinRec) (s : State) : Agree (clearDue r s) s := by cases r <;> exact ⟨rfl, rfl⟩

/-! ### A write begins -/

/-- A write that lies in the window is in progress; it owes nothing more, and the record's revision has advanced. -/
theorem beginWrite_inside {l : Layout} (hl : s.win.layout = some l) {r : WinRec} (cs : Causes)
    (h : accessOk s (recordOffset l r) (recordSize r) = true) :
    beginWrite r cs s = let b := bumpRevision r (clearDue r s)
      { b with win := { b.win with jobs := b.win.jobs ++ [(r, jobOf s (recordOffset l r) r (writeCauses s r cs))] } } := by
  simp [beginWrite, hl, h]

theorem agree_beginWrite (r : WinRec) (cs : Causes) (s : State) : Agree (beginWrite r cs s) s := by
  cases hl : s.win.layout with
  | none => rw [beginWrite, hl]; exact .refl s
  | some l =>
    cases hin : accessOk s (recordOffset l r) (recordSize r) with
    | true =>
      rw [beginWrite_inside hl cs hin]
      exact Agree.trans ⟨rfl, rfl⟩ ((agree_bumpRevision r _).trans (agree_clearDue r s))
    | false =>
      rw [beginWrite_outside r cs hl hin]
      exact (agree_raiseCauses _ _).trans ((agree_logError _ _ _).trans (agree_clearDue r s))

/-! ### Writes fall due -/

theorem agree_schedule (r : WinRec) (cs : Causes) (s : State) : Agree (schedule r cs s) s := by
  unfold schedule
  split
  · exact ⟨rfl, rfl⟩
  · split
    · exact ⟨rfl, rfl⟩
    · exact agree_beginWrite r cs s

theorem agree_scheduleAll (l : List (WinRec × Causes)) (s : State) : Agree (scheduleAll l s) s :=
  Agree.foldl (f := fun t (p : WinRec × Causes) => schedule p.1 p.2 t) (fun t p => agree_schedule p.1 p.2 t) l s

theorem agree_settleLog (n : Nat) (old : Option LogRecord) (s : State) : Agree (settleLog n old s) s := by
  induction n generalizing old s with
  | zero => exact .refl s
  | succ n ih =>
    rw [settleLog]
    split
    · exact .refl s
    · exact (ih _ _).trans (agree_schedule _ _ s)

theorem agree_fullWrite (l : Layout) (s : State) : Agree (fullWrite l s) s := by
  rw [fullWrite]
  split
  · exact agree_scheduleAll _ s
  · exact ⟨rfl, rfl⟩

theorem agree_scheduleDues (ds : List (WinRec × Causes)) (a b : State) : Agree (scheduleDues ds a b) b := by
  refine (agree_settleLog _ _ _).trans ?_
  split
  · exact (agree_schedule _ _ _).trans (agree_scheduleAll _ b)
  · exact agree_scheduleAll _ b

theorem agree_finishWith (ds : List (WinRec × Causes)) (a b : State) : Agree (finishWith ds a b) b := by
  rw [finishWith]
  split
  · exact .refl b
  · split
    · split
      · exact (agree_settleLog _ _ _).trans (agree_fullWrite _ b)
      · exact .refl b
    · exact agree_scheduleDues ds a b

theorem agree_beginDeferred (l : List (WinRec × Causes)) (s : State) : Agree (beginDeferred l s) s := by
  induction l generalizing s with
  | nil => exact .refl s
  | cons p l ih =>
    rw [beginDeferred]
    dsimp only
    split
    · exact (ih _).trans ⟨rfl, rfl⟩
    · split
      · exact (agree_beginWrite _ _ _).trans ⟨rfl, rfl⟩
      · exact (ih _).trans ((agree_beginWrite _ _ _).trans ⟨rfl, rfl⟩)

theorem agree_resumeDeferred (s : State) : Agree (resumeDeferred s) s := by
  rw [resumeDeferred]
  split
  · exact .refl s
  · exact agree_beginDeferred _ s

/-! ### The statements -/

/-- Settles O7: each operation of the writer leaves the blocks and the settings alone, hence so does their composition. -/
theorem writesFallingDueLeaveTheBlocksAlone : Obligations.WritesFallingDueLeaveTheBlocksAlone := agree_finishWith

theorem causeClear_eq (w : BitVec 64) (s : State) : causeClear w s = { s with win := { s.win with cause :=
    { order := s.win.cause.order && !w.getLsbD 0, fleet := s.win.cause.fleet && !w.getLsbD 1,
      track := s.win.cause.track && !w.getLsbD 2, error := s.win.cause.error && !w.getLsbD 3,
      lane := s.win.cause.lane && !w.getLsbD 4 } } } := by
  have hstep (cs : Causes) (c : Cause) (b : Bool) :
      (if b then withCause cs c false else cs) = withCause cs c (hasCause cs c && !b) := by
    cases b
    · cases c <;> simp [withCause, hasCause]
    · simp
  simp only [causeClear, allCauses, List.foldl_cons, List.foldl_nil, hstep]
  rfl

/-- Settles O10: the equations of `raiseCause` and `logError`, and the two register writes, which ask the blocks for
nothing. -/
theorem causesAndTheErrorLog : Obligations.CausesAndTheErrorLog := by
  unfold Obligations.CausesAndTheErrorLog
  refine ⟨raiseCause_eq, fun kind detail s => ⟨fun r h => logError_full h kind detail,
    fun hlog h => logError_stopped hlog h kind detail, fun hlog h => logError_running hlog h kind detail⟩, fun w s hquiet => ?_⟩
  intro w5
  refine ⟨?_, event_quiet (f := enableWrite w) hquiet⟩
  have h := event_quiet (f := causeClear w) (s := s) hquiet
  rwa [causeClear_eq] at h

end Sys2Proof.Machine
end

section
/-! Cold and warm reset (10 R199, R200), and the register words the host reads (10 R183). -/

namespace Sys2Proof.Machine

/-! ### Resets -/

/-- Settles O5: `abandonWrites_eq` says what the writes in progress leave, of which the reset keeps memory and the count. -/
theorem coldResetGivesTheColdState : Obligations.ColdResetGivesTheColdState := by
  unfold Obligations.ColdResetGivesTheColdState
  intro powerOn s
  obtain ⟨m, hleft, hidle, hother⟩ := abandonWrites_eq s.win.jobs s
  have heq : coldReset powerOn s = { State.reset with
      pending := s.pending, out := s.out, freeIndex := s.freeIndex + s.win.jobs.length, window := m,
      clock := if powerOn then 0 else s.clock } := by rw [coldReset, hleft]
  have hwindow : (coldReset powerOn s).window = m := by rw [heq]
  refine ⟨coldReset powerOn s, rfl, ?_, ?_, ?_⟩
  · rw [hwindow]; exact heq
  · rw [hwindow]; exact hidle
  · rw [hwindow]; exact hother

/-- Settles O6: as for a cold reset, with the window registers and a COMMITTED map kept. -/
theorem warmResetKeepsACommittedMap : Obligations.WarmResetKeepsACommittedMap := by
  unfold Obligations.WarmResetKeepsACommittedMap
  intro w s
  obtain ⟨m, hleft, hidle, hother⟩ := abandonWrites_eq s.win.jobs s
  have hwindow : (warmReset s).window = m := by rw [warmReset, hleft]
  have hmap : warmMap s.map = if committed s then { s.map with queue := [], run := .idle } else {} := by
    simp [warmMap, committed]
  have hzones : warmZones s.zones = s.zones.filterMap (fun p => if p.2.live = .opened then none
      else some (p.1, { holder := none, waiters := [], live := .closed, closingOrder := none, stall := false })) :=
    List.filterMap_congr fun p _ => by
      by_cases hopen : p.2.live = .opened
      · simp [hopen]
      · simp [hopen, warmZone]
  refine ⟨warmReset s, rfl, ?_, ?_, ?_⟩
  · rw [hwindow, warmReset, hleft, ← hmap, ← hzones]; rfl
  · rw [hwindow]; exact hidle
  · rw [hwindow]; exact hother

/-! ### Register words -/

/-- The number whose bits are those of a list, the lowest first. -/
def ofBits : List Bool → Nat
  | [] => 0
  | b :: l => b.toNat + 2 * ofBits l

theorem testBit_ofBits (l : List Bool) (i : Nat) : (ofBits l).testBit i = l.getD i false := by
  induction l generalizing i with
  | nil => simp [ofBits]
  | cons b l ih =>
    cases i with
    | zero => cases b <;> simp [ofBits, Nat.testBit_zero]
    | succ i =>
      have hdiv : (b.toNat + 2 * ofBits l) / 2 = ofBits l := by have := b.toNat_le; omega
      rw [ofBits, Nat.testBit_succ, hdiv, ih, List.getD_cons_succ]

/-- A register word of named bits reads each of them, and 0 elsewhere. -/
theorem getLsbD_ofBits {n : Nat} {l : List Bool} (h : n = ofBits l) {i : Nat} (hi : i < 64) :
    (BitVec.ofNat 64 n).getLsbD i = l.getD i false := by
  rw [BitVec.getLsbD_ofNat, h, testBit_ofBits, decide_eq_true hi, Bool.true_and]

theorem bit_eq (b : Bool) (i : Nat) : bit b i = b.toNat * 2 ^ i := by cases b <;> simp [bit]

def controlBits (s : State) : List Bool :=
  [false, false, false, false, s.win.manualEnable, s.tsl.linkHold, false, false, s.win.ce]
def causesBits (cs : Causes) : List Bool := [cs.order, cs.fleet, cs.track, cs.error, cs.lane]
def statusBits (s : State) : List Bool :=
  [decide (s.win.engine = .layoutFault), decide (s.win.engine = .running), s.win.cold, s.win.mapKept,
   decide (s.map.phase = .opened), decide (s.map.phase = .committed), decide (s.flt.phase = .operating), s.ink.hot.overflow,
   s.ink.normal.overflow, s.win.hold, s.ink.sweep.isSome, false, s.win.layoutCheck.testBit 0, s.win.layoutCheck.testBit 1,
   s.win.layoutCheck.testBit 2]

theorem engineCode_bits (e : Engine) : engineCode e = (decide (e = .layoutFault)).toNat + 2 * (decide (e = .running)).toNat := by
  cases e <;> rfl
theorem mapPhaseCode_bits (p : MapPhase) :
    mapPhaseCode p = (decide (p = .opened)).toNat + 2 * (decide (p = .committed)).toNat := by
  cases p <;> rfl
theorem fleetPhaseCode_bits (p : FleetPhase) : fleetPhaseCode p = (decide (p = .operating)).toNat := by cases p <;> rfl
theorem layoutCheck_bits {n : Nat} (h : n ≤ 7) :
    n = (n.testBit 0).toNat + 2 * (n.testBit 1).toNat + 4 * (n.testBit 2).toNat := by
  revert n; decide

theorem controlWord_bits (s : State) : controlWord s = BitVec.ofNat 64 (ofBits (controlBits s)) := by
  simp only [controlWord, bit_eq, controlBits, ofBits, Bool.toNat_false]
  exact congrArg _ (by omega)
theorem causesWord_bits (cs : Causes) : causesWord cs = ofBits (causesBits cs) := by
  simp only [causesWord, bit_eq, causesBits, ofBits]
  omega
theorem statusWord_bits {s : State} (h : s.win.layoutCheck ≤ 7) : statusWord s = BitVec.ofNat 64 (ofBits (statusBits s)) := by
  have hcheck := layoutCheck_bits h
  simp only [statusWord, bit_eq, engineCode_bits, mapPhaseCode_bits, fleetPhaseCode_bits, statusBits, ofBits, Bool.toNat_false]
  exact congrArg _ (by omega)

/-- The value of a cold reset's registers: COLD alone is set (10 R199). -/
theorem reset_readRegister {off : Nat} (h : off ≠ 16) :
    readRegister State.reset off = some (if off = 8 then 4#64 else 0#64) := by
  rw [readRegister, if_neg h]
  by_cases h8 : off = 8
  · subst h8; decide
  · rw [if_neg h8, if_neg h8]
    repeat' split
    all_goals rfl

/-- Settles O2: the cold values by evaluation, and each register word as its list of bits. -/
theorem resetLeavesTheColdValues : Obligations.ResetLeavesTheColdValues := by
  unfold Obligations.ResetLeavesTheColdValues
  refine ⟨⟨fun off => reset_readRegister, rfl, rfl, rfl, rfl, rfl, rfl, rfl, rfl, rfl, rfl, rfl, rfl, fun _ => rfl, fun _ _ => rfl,
    fun _ => rfl, fun _ => rfl, fun _ => rfl, fun _ => rfl, fun _ => ⟨rfl, rfl⟩, fun _ => rfl, fun _ => rfl, rfl, rfl, fun _ => rfl,
    fun _ => rfl, fun _ => rfl, fun _ => rfl, rfl, rfl, rfl, fun _ => rfl, fun _ => rfl, rfl, rfl, rfl, rfl, rfl, fun _ => rfl,
    fun _ => rfl⟩, fun s => ?reads⟩
  case reads =>
    intro shows causes
    have hcauses (cs : Causes) (i : Nat) : (causesBits cs).getD i false = causes cs i := match i with
      | 0 | 1 | 2 | 3 | 4 => rfl
      | _ + 5 => rfl
    refine ⟨?control, fun hcheck => ?status, rfl, ?hold, ?cause, ?enable, rfl, rfl, fun off hoff => ?none⟩
    case control =>
      exact ⟨_, congrArg some (controlWord_bits s), fun i hi => (getLsbD_ofBits rfl hi).trans (match i with
        | 0 | 1 | 2 | 3 | 4 | 5 | 6 | 7 | 8 => rfl
        | _ + 9 => rfl)⟩
    case status =>
      exact ⟨_, congrArg some (statusWord_bits hcheck), fun i hi => (getLsbD_ofBits rfl hi).trans (match i with
        | 0 | 1 | 2 | 3 | 4 | 5 | 6 | 7 | 8 | 9 | 10 | 11 | 12 | 13 | 14 => rfl
        | _ + 15 => rfl)⟩
    case hold =>
      exact ⟨_, rfl, fun i hi => (getLsbD_ofBits (l := [s.win.hold]) (by simp [bit_eq, ofBits]) hi).trans (match i with
        | 0 => by simp
        | _ + 1 => by simp)⟩
    case cause => exact ⟨_, rfl, fun i hi => (getLsbD_ofBits (causesWord_bits _) hi).trans (hcauses _ i)⟩
    case enable => exact ⟨_, rfl, fun i hi => (getLsbD_ofBits (causesWord_bits _) hi).trans (hcauses _ i)⟩
    case none =>
      simp only [List.mem_cons, List.not_mem_nil, or_false, not_or] at hoff
      obtain ⟨h0, h8, h16, h24, h32, h40, h48, h56⟩ := hoff
      simp [readRegister, h0, h8, h16, h24, h32, h40, h48, h56]

end Sys2Proof.Machine
end

section
/-! The register writes: CONTROL with START, POST, and the write to a register by its offset (10 R183 to R187, R189). -/

namespace Sys2Proof.Machine

variable {s : State} {w : BitVec 64}

/-! ### CONTROL -/

/-- A CONTROL write that leaves LINK_HOLD as it is: CL with CE held before it empties the log, then MANUAL_ENABLE and CE take
their values (10 R184). -/
def controlTaken (w : BitVec 64) (s : State) : State := { s with win := { s.win with
  manualEnable := w.getLsbD 4, ce := w.getLsbD 8,
  log := if w.getLsbD 9 = true ∧ s.win.ce = true then none else s.win.log,
  errorDue := if w.getLsbD 9 = true ∧ s.win.ce = true then false else s.win.errorDue } }

theorem controlWrite_taken (hwarm : w.getLsbD 1 = false) (hlink : w.getLsbD 5 = s.tsl.linkHold) :
    controlWrite w s = if w.getLsbD 0 then startStrobe (controlTaken w s) else controlTaken w s := by
  have hclear : (if w.getLsbD 9 then clearLog s else s) = { s with win := { s.win with
      log := if w.getLsbD 9 = true ∧ s.win.ce = true then none else s.win.log,
      errorDue := if w.getLsbD 9 = true ∧ s.win.ce = true then false else s.win.errorDue } } := by
    by_cases h : w.getLsbD 9 = true ∧ s.win.ce = true
    · rw [if_pos h.1, clearLog, if_pos h.2, if_pos h, if_pos h]
    · rw [if_neg h, if_neg h]
      split
      next hcl => rw [clearLog, if_neg (fun hce => h ⟨hcl, hce⟩)]
      next => rfl
  rw [controlWrite, hwarm, hclear]
  simp only [Bool.false_eq_true, if_false]
  rw [setLinkHold_same (by exact hlink.symm)]
  rfl

theorem event_controlTaken (hquiet : Quiet s) (hwarm : w.getLsbD 1 = false) (hstart : w.getLsbD 0 = false)
    (hlink : w.getLsbD 5 = s.tsl.linkHold) : event (controlWrite w) s = .next (finish s (controlTaken w s)) := by
  have heffect : controlWrite w s = controlTaken w s := by rw [controlWrite_taken hwarm hlink, hstart]; rfl
  rw [event_quiet (by rw [heffect]; exact hquiet), heffect]

/-- Settles O11: the three rows are CONTROL writes, CL's with bit 9 set. -/
theorem controlTakesItsWrittenValues : Obligations.ControlTakesItsWrittenValues := by
  unfold Obligations.ControlTakesItsWrittenValues
  intro w s hquiet hwarm hstart hlink after
  have hplain := event_controlTaken hquiet hwarm hstart hlink
  have hcl : event (controlWrite (w ||| 0x200#64)) s = .next (finish s (controlTaken (w ||| 0x200#64) s)) :=
    event_controlTaken hquiet (by simpa using hwarm) (by simpa using hstart) (by simpa using hlink)
  have htaken : controlTaken (w ||| 0x200#64) s = after true := by simp [controlTaken, after]
  exact ⟨hplain, hplain, hcl.trans (by rw [htaken])⟩

/-! ### START -/

theorem faultDetail_check {n : Nat} (h : n ≤ 7) : faultDetail 4 n = 4 * 2 ^ 28 + n := by rw [faultDetail]; omega

@[simp] theorem startStrobe_agenda (s : State) : (startStrobe s).agenda = s.agenda := by
  rw [startStrobe]
  split
  · rfl
  · split
    · rfl
    · exact logError_agenda ..

/-- Settles O12: the write's own bits are taken, then the strobe reads the header or fails. -/
theorem startReadsTheHeader : Obligations.StartReadsTheHeader := by
  unfold Obligations.StartReadsTheHeader
  intro w s hquiet hwarm hcl hlink s1 n
  have hkept : (w ||| 1#64).getLsbD 9 = false := by simpa using hcl
  have htaken : controlTaken (w ||| 1#64) s = s1 := by simp only [controlTaken, hkept]; simp [s1]
  have hstrobe : controlWrite (w ||| 1#64) s = startStrobe s1 := by
    rw [controlWrite_taken (by simpa using hwarm) (by simpa using hlink), htaken]
    simp
  have hn : n ≤ 7 := by simp only [n]; split <;> omega
  have hevent : exec (.start w) s = .next (finish s (startStrobe s1)) := by
    rw [← hstrobe]
    exact event_quiet (by rw [hstrobe, startStrobe_agenda]; exact hquiet)
  rw [hevent, ← faultDetail_check hn]
  rfl

/-! ### POST -/

theorem strayDetail_post {k : Nat} (hk : k < 4096) (hot : Bool) :
    strayDetail k hot 255 = k + (if hot then 2 ^ 15 else 0) + 255 * 2 ^ 16 := by
  rw [strayDetail, Nat.mod_eq_of_lt hk]; rfl

@[simp] theorem postNotice_agenda (w : BitVec 64) (s : State) : (postNotice w s).agenda = s.agenda := by
  rw [postNotice]
  dsimp only
  repeat' split
  all_goals simp

/-- Settles O15: by the engine, the slot number, and the last run of the lane. -/
theorem aPostJoinsItsLane : Obligations.APostJoinsItsLane := by
  unfold Obligations.APostJoinsItsLane
  intro w s hquiet k hot l withLane
  have hevent : exec (.post w) s = .next (finish s (postNotice w s)) :=
    event_quiet (by rw [postNotice_agenda]; exact hquiet)
  rw [hevent, postNotice]
  dsimp only
  rw [strayDetail_post (Nat.mod_lt _ (by decide))]
  congr 2
  refine if_congr Iff.rfl rfl (if_congr Iff.rfl rfl ?_)
  change (match noticeRuns k l.runs with
    | some rs => putLane hot { l with runs := rs } s
    | none => raiseCause .lane (putLane hot { l with overflow := true } s)) = _
  rw [noticeRuns]
  cases l.runs.getLast? with
  | none => rfl
  | some r =>
    by_cases hnext : k = r.first + r.count ∧ r.count < 64
    · simp only [Config.runLength, hnext]; rfl
    · by_cases hroom : l.runs.length < 16
      · simp only [Config.runLength, Config.runLimit, hnext, hroom, if_true, if_false]; rfl
      · simp only [Config.runLength, Config.runLimit, hnext, hroom, if_false]; rfl

/-! ### A register by its offset -/

theorem event_warmReset {f : State → State} (h : f s = warmReset s) : event f s = .next (warmReset s) := by
  rw [event_quiet (by rw [h]; rfl), h, finish_stopped (by simp [warmReset, State.reset])]

theorem controlWrite_warm (h : w.getLsbD 1 = true) (s : State) : controlWrite w s = warmReset s := by rw [controlWrite, h]; rfl

@[simp] theorem writeBase_agenda (w : BitVec 64) (s : State) : (writeBase w s).agenda = s.agenda := by rw [writeBase]
@[simp] theorem writeMask_agenda (w : BitVec 64) (s : State) : (writeMask w s).agenda = s.agenda := by rw [writeMask]

theorem upperBits_eq (w : BitVec 64) : upperBits w = w &&& 0xFFFFFFFFFFF00000#64 := by
  have hmask : ∀ i < 64, (0xFFFFFFFFFFF00000#64).getLsbD i = decide (20 ≤ i) := by decide
  refine BitVec.eq_of_getLsbD_eq fun i hi => ?_
  rw [upperBits_getLsbD, BitVec.getLsbD_and, hmask i hi, Bool.and_comm]

theorem baseBits_eq (w : BitVec 64) :
    upperBits w ||| (if w.getLsbD 0 then 1 else 0) = w &&& 0xFFFFFFFFFFF00001#64 := by
  have hmask : ∀ i < 64, (0xFFFFFFFFFFF00001#64).getLsbD i = (decide (20 ≤ i) || decide (i = 0)) := by decide
  have hlow (i : Nat) : (if w.getLsbD 0 then 1#64 else 0#64).getLsbD i = (w.getLsbD i && decide (i = 0)) := by
    by_cases hi : i = 0
    · subst hi; cases w.getLsbD 0 <;> simp
    · cases w.getLsbD 0 <;> simp [hi]
  refine BitVec.eq_of_getLsbD_eq fun i hi => ?_
  rw [BitVec.getLsbD_or, upperBits_getLsbD, BitVec.getLsbD_and, hmask i hi, Bool.and_or_distrib_left, Bool.and_comm (w.getLsbD i)]
  exact congrArg _ (hlow i)

/-- Settles O17: each offset's write is the register's own; a warm reset asks the blocks for nothing and stops the engine. -/
theorem registerWritesKeepTheNamedBits : Obligations.RegisterWritesKeepTheNamedBits := by
  unfold Obligations.RegisterWritesKeepTheNamedBits
  intro w s hquiet
  refine ⟨fun _ => rfl, fun hwarm => ?warm, rfl, rfl, rfl, rfl, ?base, ?mask, fun off hoff => ?other⟩
  case warm =>
    have hreset (x : BitVec 64) (hx : x.getLsbD 1 = true) : event (controlWrite x) s = .next (warmReset s) :=
      event_warmReset (controlWrite_warm hx s)
    have hplain := hreset w hwarm
    simp only [List.forall_mem_cons, List.not_mem_nil, false_implies, implies_true, and_true]
    exact ⟨hplain, hreset _ (by simpa using hwarm), hreset _ (by simpa using hwarm), hreset _ (by simpa using hwarm), hplain,
      hplain, hreset _ (by simpa using hwarm)⟩
  case base =>
    have hrow : exec (.registerWrite 48 w) s = event (writeBase w) s := rfl
    rw [hrow, event_quiet (f := writeBase w) ((writeBase_agenda w s).trans hquiet), writeBase, baseBits_eq]
  case mask =>
    have hrow : exec (.registerWrite 56 w) s = event (writeMask w) s := rfl
    rw [hrow, event_quiet (f := writeMask w) ((writeMask_agenda w s).trans hquiet), writeMask, upperBits_eq]
  case other =>
    have hkept : registerStore off w s = s := by
      simp only [List.mem_cons, List.not_mem_nil, or_false, not_or] at hoff
      obtain ⟨h0, h16, h24, h32, h40, h48, h56⟩ := hoff
      simp [registerStore, h0, h16, h24, h32, h40, h48, h56]
    have hevent := event_quiet (f := registerStore off w) (s := s) (by rw [hkept]; exact hquiet)
    rwa [hkept] at hevent

end Sys2Proof.Machine
end

section
/-! Intake: the choice of slot reads, what a completed read does, and the taking of a POSTED slot (10 R190 to R193). -/

namespace Sys2Proof.Machine

variable {s : State}

/-! ### Reads asked for nothing -/

@[simp] theorem readStart_agenda (s : State) : (readStart s).agenda = s.agenda := by
  rw [readStart]
  repeat' split
  all_goals simp

@[simp] theorem stray_agenda (rd : SlotRead) (n : Nat) (s : State) : (stray rd n s).agenda = s.agenda := by
  rw [stray]; split <;> simp

/-! ### The next slot -/

theorem laneNext_eq (l : Lane) : laneNext l = l.runs.head?.map (fun r => r.first + r.done) := by
  rw [laneNext]; cases l.runs <;> rfl

/-- No read begins while one is in flight, under HOLD or outside RUNNING (10 R190, R193). -/
theorem readStart_waits (h : s.ink.read.isSome = true ∨ s.win.hold = true ∨ s.win.engine ≠ .running) : readStart s = s := by
  rw [readStart, if_pos h]

/-- What begins where nothing keeps the next read waiting (10 R185, R190). -/
theorem readStart_next {rd : SlotRead} (hread : s.ink.read = none) (hhold : s.win.hold = false) (hrun : s.win.engine = .running)
    (hnext : nextRead s = some rd) : readStart s =
      if stateWritePending s rd.slot then s
      else if accessOk s (slotOffset s rd.slot) 64 then { s with ink := { s.ink with read := some rd } }
      else consume rd.origin (logFault 1 (slotOffset s rd.slot) s) := by
  rw [readStart, if_neg (by simp [hread, hhold, hrun]), hnext]

/-- Settles O18: the choice, then the three things that can become of it. -/
theorem theNextSlotIsRead : Obligations.TheNextSlotIsRead := by
  unfold Obligations.TheNextSlotIsRead
  intro s hquiet first next
  have hnext : nextRead s = next := by
    simp only [nextRead, laneNext_eq, next, first]
    cases s.ink.hot.runs.head?.map (fun r => r.first + r.done) with
    | some k => rfl
    | none =>
      cases s.ink.sweep with
      | some w => rfl
      | none => cases s.ink.normal.runs.head? <;> rfl
  have hevent : exec .slotReadStart s = .next (finish s (readStart s)) :=
    event_quiet ((readStart_agenda s).trans hquiet)
  rw [hevent]
  refine ⟨fun h => ?waits, fun rd hread hhold hrun hrd => ?reads⟩
  case waits =>
    have hkept : readStart s = s := by
      rcases h with h | h | h | h
      · exact readStart_waits (.inl h)
      · exact readStart_waits (.inr (.inl h))
      · exact readStart_waits (.inr (.inr h))
      · rw [readStart, hnext, h]; exact ite_self s
    rw [hkept]
  case reads =>
    rw [readStart_next hread hhold hrun (hnext.trans hrd)]
    refine ⟨fun hpending => ?_, fun hfree hin => ?_, fun hfree hout => ?_⟩
    · rw [if_pos hpending]
    · rw [hfree, hin]; rfl
    · rw [hfree, hout]; rfl

/-! ### Notices consumed -/

/-- What is left of a lane's runs after one more slot of the first has been acted on. -/
def runsLeft (r : Run) (rs : List Run) : List Run := if r.done + 1 < r.count then { r with done := r.done + 1 } :: rs else rs

theorem laneRead_cons {l : Lane} {r : Run} {rs : List Run} (h : l.runs = r :: rs) : laneRead l = { l with runs := runsLeft r rs } := by
  obtain ⟨runs, overflow⟩ := l
  subst h
  exact (apply_ite (fun left => ({ runs := left, overflow := overflow } : Lane)) ..).symm

/-- A lane that becomes empty with its overflow flag set clears the flag and calls for a sweep (10 R190, R192). -/
theorem consumeNotice_cons (hot : Bool) {r : Run} {rs : List Run} (h : (laneOf hot s).runs = r :: rs) :
    consumeNotice hot s = if runsLeft r rs = [] ∧ (laneOf hot s).overflow = true
      then sweepDue (putLane hot { runs := [], overflow := false } s)
      else putLane hot { laneOf hot s with runs := runsLeft r rs } s := by
  rw [consumeNotice, laneRead_cons h]
  refine ite_congr rfl (fun hempty => ?_) (fun _ => rfl)
  rw [hempty.1]

/-- The sweep that a lane's overflow calls for (10 R192). -/
theorem sweepDue_eq (s : State) : sweepDue s = { s with ink := { s.ink with sweep := some (match s.ink.sweep with
    | none => { position := 0, again := false }
    | some w => { w with again := true }) } } := by
  rw [sweepDue]
  cases s.ink.sweep <;> rfl

/-! ### A read that takes nothing -/

theorem readDone_error {rd : SlotRead} (h : s.ink.read = some rd) : readDone .error s =
    consume rd.origin (logFault 2 (slotOffset s rd.slot) { s with ink := { s.ink with read := none } }) := by
  rw [readDone, h]
theorem readDone_data {rd : SlotRead} (h : s.ink.read = some rd) (bs : List Byte) : readDone (.data bs) s =
    actOn rd (parseSlot bs) { s with ink := { s.ink with read := none } } := by
  rw [readDone, h]

theorem actOn_held {rd : SlotRead} {c : SlotContents} (hstate : c.state ≠ 1) (hhold : s.win.hold = true) : actOn rd c s = s := by
  simp [actOn, hstate, hhold]
theorem actOn_stray {rd : SlotRead} {c : SlotContents} (hstate : c.state ≠ 1) (hhold : s.win.hold = false)
    (hlive : liveAt s rd.slot = none) : actOn rd c s = stray rd c.state (consume rd.origin s) := by
  simp [actOn, hstate, hhold, hlive]
theorem actOn_posted {rd : SlotRead} {c : SlotContents} (hstate : c.state = 1) (hlive : liveAt s rd.slot = none) :
    actOn rd c s = takeSlot rd.slot c (consume rd.origin s) := by
  simp [actOn, hstate, hlive]

/-- An event of a slot read's completion that asks the blocks for nothing. -/
theorem exec_slotReadDone {r : ReadResult} {b : State} (h : readDone r s = b) (hquiet : b.agenda = []) :
    exec (.slotReadDone r) s = .next (finish s b) := by
  subst h; exact event_quiet hquiet

/-- Settles O19: the consumption by what named the slot, then the completed read by its bytes. -/
theorem aReadThatTakesNothingConsumesItsNotice : Obligations.AReadThatTakesNothingConsumesItsNotice := by
  unfold Obligations.AReadThatTakesNothingConsumesItsNotice
  refine ⟨fun s => ?consumed, fun rd s hquiet hread => ?completed⟩
  case consumed =>
    intro swept
    refine ⟨fun r rs => ⟨fun h => ?hot, fun h => ?normal⟩, fun w h => ?sweep⟩
    case hot =>
      refine (consumeNotice_cons true h).trans ?_
      rw [sweepDue_eq]
      exact (apply_ite (fun ink => ({ s with ink := ink } : State)) ..).symm
    case normal =>
      refine (consumeNotice_cons false h).trans ?_
      rw [sweepDue_eq]
      exact (apply_ite (fun ink => ({ s with ink := ink } : State)) ..).symm
    case sweep => rw [consume, sweepOn, h]
  case completed =>
    intro s1
    have hquiet1 : s1.agenda = [] := hquiet
    refine ⟨exec_slotReadDone (readDone_error hread) (by simp [hquiet1]),
      fun bs hstate => ⟨fun hhold => ?held, fun hhold hlive => ?stray⟩⟩
    case held => exact exec_slotReadDone ((readDone_data hread bs).trans (actOn_held hstate hhold)) hquiet
    case stray =>
      have heffect := (readDone_data hread bs).trans (actOn_stray (s := s1) (rd := rd) hstate hhold hlive)
      rw [exec_slotReadDone heffect (by simp [hquiet1])]
      obtain ⟨k, origin⟩ := rd
      cases origin <;> rfl

/-! ### Takings -/

theorem takeSlot_cancelled {slot : Nat} {c : SlotContents} (h : c.cancel ≠ 0) :
    takeSlot slot c s = cancelAtIntake (taking s slot c.tag) c.op (countTaking s) := by rw [takeSlot, if_pos h]
theorem takeSlot_routed {slot : Nat} {c : SlotContents} (h : c.cancel = 0) :
    takeSlot slot c s = routeOrder (taking s slot c.tag) c.op (countTaking s) := by rw [takeSlot, if_neg (not_not.2 h)]

theorem cancelAtIntake_directive {op : SlotOp} (h : ∀ m, op ≠ .move m) (t : Taking) (s : State) :
    cancelAtIntake t op s = endNow t .cancelled none 0 0 s := by
  cases op with
  | move m => exact absurd rfl (h m)
  | _ => rfl

/-- Settles O20: the taking of a slot found POSTED by its cancel byte and kind; an order's row by whether it can be taken. -/
theorem aPostedSlotIsTaken : Obligations.APostedSlotIsTaken := by
  unfold Obligations.APostedSlotIsTaken
  intro given
  refine ⟨fun rd bs s hquiet hread hlive hposted => ?read, fun slot tag a b c d m s hquiet => ?row⟩
  case read =>
    intro c s1
    have hquiet1 : s1.agenda = [] := (consume_agenda _ _).trans hquiet
    have heffect : readDone (.data bs) s = takeSlot rd.slot c s1 := (readDone_data hread bs).trans (actOn_posted hposted hlive)
    refine ⟨fun hcancel hop => ?directive, fun hcancel hop => ?move, fun hcancel => ?routed, fun hcancel hop => ?unknown⟩
    case directive =>
      exact exec_slotReadDone (heffect.trans ((takeSlot_cancelled hcancel).trans (cancelAtIntake_directive hop _ _))) hquiet1
    case move =>
      obtain ⟨m, hm⟩ := hop
      intro bare due
      refine exec_slotReadDone (heffect.trans ((takeSlot_cancelled hcancel).trans ?_)) hquiet1
      rw [hm]
      rfl
    case routed =>
      rw [show exec (.slotReadDone (.data bs)) s = event (readDone (.data bs)) s from rfl, event_settle, heffect, takeSlot_routed hcancel]
      rfl
    case unknown =>
      obtain ⟨n, hn⟩ := hop
      refine exec_slotReadDone (heffect.trans ((takeSlot_routed hcancel).trans ?_)) hquiet1
      rw [hn]
      rfl
  case row =>
    intro row hrow
    have hexec : exec row.1 s = event (takeRow slot tag row.2) s := by
      revert row
      simp only [List.forall_mem_cons, List.not_mem_nil, false_implies, implies_true, and_true]
      exact ⟨rfl, rfl, rfl, rfl, rfl, rfl, rfl, rfl, rfl, rfl, rfl, rfl, rfl, rfl, rfl⟩
    rw [hexec, event_settle]
    refine ⟨fun htakeable => ?_, fun hblocked => ?_⟩
    · rw [takeRow_taken htakeable]; rfl
    · rw [show takeRow slot tag row.2 s = s by simp [takeRow, hblocked], settle_quiet hquiet]

end Sys2Proof.Machine
end

section
/-! The window writer: a write that begins, is dropped, is deferred or completes; HOLD (10 R185, R188, R193 to R196). -/

namespace Sys2Proof.Machine

variable {s t a b : State} {r q : WinRec} {l : Layout}

/-! ### Writes in progress -/

theorem findJob_self {j : Job} (hjobs : t.win.jobs = s.win.jobs ++ [(r, j)]) (h : findJob s r = none) : findJob t r = some j := by
  have hfind : s.win.jobs.find? (fun p => decide (p.1 = r)) = none := Option.map_eq_none_iff.1 h
  rw [findJob, hjobs, List.find?_append, hfind]
  simp

theorem findJob_other {j : Job} (hjobs : t.win.jobs = s.win.jobs ++ [(r, j)]) (h : q ≠ r) : findJob t q = findJob s q := by
  rw [findJob, hjobs, List.find?_append, List.find?_cons_of_neg (by simpa using h.symm), List.find?_nil, Option.or_none, findJob]

/-! ### What a write owes and the revisions -/

@[simp] theorem clearDue_jobs (r : WinRec) (s : State) : (clearDue r s).win.jobs = s.win.jobs := by cases r <;> rfl
@[simp] theorem clearDue_deferred (r : WinRec) (s : State) : (clearDue r s).win.deferred = s.win.deferred := by cases r <;> rfl
@[simp] theorem clearDue_log (r : WinRec) (s : State) : (clearDue r s).win.log = s.win.log := by cases r <;> rfl
@[simp] theorem clearDue_cause (r : WinRec) (s : State) : (clearDue r s).win.cause = s.win.cause := by cases r <;> rfl
@[simp] theorem clearDue_out (r : WinRec) (s : State) : (clearDue r s).out = s.out := by cases r <;> rfl
@[simp] theorem bumpRevision_jobs (r : WinRec) (s : State) : (bumpRevision r s).win.jobs = s.win.jobs := by cases r <;> rfl
@[simp] theorem bumpRevision_deferred (r : WinRec) (s : State) : (bumpRevision r s).win.deferred = s.win.deferred := by
  cases r <;> rfl
@[simp] theorem bumpRevision_log (r : WinRec) (s : State) : (bumpRevision r s).win.log = s.win.log := by cases r <;> rfl
@[simp] theorem bumpRevision_cause (r : WinRec) (s : State) : (bumpRevision r s).win.cause = s.win.cause := by cases r <;> rfl
@[simp] theorem bumpRevision_out (r : WinRec) (s : State) : (bumpRevision r s).out = s.out := by cases r <;> rfl
@[simp] theorem bumpRevision_errorDue (r : WinRec) (s : State) : (bumpRevision r s).win.errorDue = s.win.errorDue := by
  cases r <;> rfl
@[simp] theorem bumpRevision_slotDue (r : WinRec) (s : State) : (bumpRevision r s).win.slotDue = s.win.slotDue := by
  cases r <;> rfl

theorem revisionOf_clearDue (r q : WinRec) (s : State) : revisionOf (clearDue r s) q = revisionOf s q := by
  cases r <;> cases q <;> rfl

/-- A slot that still owes something once a write has begun or been dropped owes what it did. -/
theorem slotDueAt_clearDue (h : tableWf {} s.win.slotDue = true) {k : Nat} (hk : slotDueAt (clearDue r s) k ≠ {}) :
    slotDueAt (clearDue r s) k = slotDueAt s k := by
  cases r with
  | slot j =>
    have hne : k ≠ j := fun e => hk (e ▸ tget_tset_same _ j _ h)
    exact slotDueAt_putSlotDue_other s _ hne
  | _ => rfl

/-- The revision tables in canonical form. -/
def RevisionsWf (s : State) : Prop :=
  tableWf 0 s.win.vehicleRev = true ∧ tableWf 0 s.win.zoneRev = true ∧ tableWf 0 s.win.shelfRev = true

theorem revisionOf_bumpRevision (h : RevisionsWf s) (hr : ∀ k, r ≠ .slot k) :
    revisionOf (bumpRevision r s) r = revisionOf s r + 2 := by
  obtain ⟨hvehicles, hzones, hshelves⟩ := h
  cases r with
  | slot k => exact absurd rfl (hr k)
  | vehicle v => exact tget_tset_same 0 v _ hvehicles
  | zone z => exact tget_tset_same 0 z _ hzones
  | shelf st => exact tget_tset_same 0 st _ hshelves
  | status => rfl

/-- A mirror record or the status block is written as its revision increased by 1, its contents, its revision increased
by 2 (10 R195). -/
theorem partsOf_mirror (hr : ∀ k, r ≠ .slot k) (s : State) : partsOf s r =
    [(0, leBytes 2 (revisionOf s r + 1).toNat)] ++ contentsOf s r ++ [(0, leBytes 2 (revisionOf s r + 2).toNat)] := by
  cases r with
  | slot k => exact absurd rfl (hr k)
  | _ => rfl

theorem slotParts_final {k : Nat} {f : Final} (h : (slotDueAt s k).final = some f) :
    slotParts s k = progressParts f.progress ++ resultParts f ++ donePart := by rw [slotParts, h]
theorem slotParts_live {k : Nat} {o : Live} (h : (slotDueAt s k).final = none) (ho : liveAt s k = some o) :
    slotParts s k = progressParts (liveProgress o) ++ if (slotDueAt s k).taken then takenPart else [] := by
  rw [slotParts, h, ho]

/-! ### A write begins or is dropped -/

theorem beginWrite_jobs (hl : s.win.layout = some l) (cs : Causes) (h : accessOk s (recordOffset l r) (recordSize r) = true) :
    (beginWrite r cs s).win.jobs = s.win.jobs ++ [(r, jobOf s (recordOffset l r) r (writeCauses s r cs))] := by
  rw [beginWrite_inside hl cs h]; simp

theorem beginWrite_slotDue (hl : s.win.layout = some l) (cs : Causes) (h : accessOk s (recordOffset l r) (recordSize r) = true) :
    (beginWrite r cs s).win.slotDue = (clearDue r s).win.slotDue := by
  rw [beginWrite_inside hl cs h]; simp

/-- A dropped write leaves the writes in progress and the deferred ones as they are. -/
theorem beginWrite_dropped (hl : s.win.layout = some l) (cs : Causes) (h : accessOk s (recordOffset l r) (recordSize r) = false) :
    (beginWrite r cs s).win.jobs = s.win.jobs ∧ (beginWrite r cs s).win.deferred = s.win.deferred := by
  obtain ⟨x, e, p, o, hlogged⟩ := logError_eq .windowFault (faultDetail 5 (recordOffset l r)) (clearDue r s)
  obtain ⟨p', o', hraised⟩ := raiseCauses_eq (writeCauses s r cs) (logFault 5 (recordOffset l r) (clearDue r s))
  rw [beginWrite_outside r cs hl h, hraised, logFault, hlogged]
  simp

/-- A write that nothing defers and that has none of its record before it begins. -/
theorem schedule_begins (cs : Causes) (hhold : s.win.hold = false) (hdeferred : ∀ p ∈ s.win.deferred, p.1 ≠ r)
    (hjob : findJob s r = none) : schedule r cs s = beginWrite r cs s := by
  have hwaits : isDeferred s r = false := List.any_eq_false.2 fun p hp => by simpa using hdeferred p hp
  rw [schedule, hhold, hwaits, hjob]
  rfl

/-! ### A write completes -/

/-- A write in progress has ended: its parts are in host memory or its failure is logged, its causes are raised (10 R185). -/
def jobEnded (r : WinRec) (ok : Bool) (j : Job) (s : State) : State :=
  let s1 : State := { s with win := { s.win with jobs := s.win.jobs.filter (fun p => !decide (p.1 = r)) } }
  raiseCauses j.causes (if ok then { s1 with window := writeParts s.window j.parts } else logFault 3 j.offset s1)

/-- The write of a change made meanwhile falls due (10 R195). -/
def writtenAgain (r : WinRec) (again : Option Causes) (s : State) : State := match again with
  | some cs => schedule r cs s
  | none => s

theorem writeDone_idle (h : findJob s r = none) (ok : Bool) : writeDone r ok s = s := by rw [writeDone, h]
theorem writeDone_job {j : Job} (h : findJob s r = some j) (ok : Bool) :
    writeDone r ok s = resumeDeferred (writtenAgain r j.again (jobEnded r ok j s)) := by rw [writeDone, h]; rfl

theorem agree_writtenAgain (r : WinRec) (again : Option Causes) (s : State) : Agree (writtenAgain r again s) s := by
  cases again with
  | some cs => exact agree_schedule r cs s
  | none => exact .refl s

theorem agree_writeDone {j : Job} (h : findJob s r = some j) (ok : Bool) : Agree (writeDone r ok s) (jobEnded r ok j s) := by
  rw [writeDone_job h]
  exact (agree_resumeDeferred _).trans (agree_writtenAgain r j.again _)

theorem jobEnded_agenda (r : WinRec) (ok : Bool) (j : Job) (s : State) : (jobEnded r ok j s).agenda = s.agenda := by
  rw [jobEnded, raiseCauses_agenda]
  cases ok
  · exact logFault_agenda ..
  · rfl

theorem jobEnded_window (r : WinRec) (ok : Bool) (j : Job) (s : State) :
    (jobEnded r ok j s).window = if ok then writeParts s.window j.parts else s.window := by
  refine (agree_raiseCauses _ _).window_eq.trans ?_
  cases ok
  · exact (agree_logError ..).window_eq
  · rfl

theorem writeDone_agenda (r : WinRec) (ok : Bool) (s : State) : (writeDone r ok s).agenda = s.agenda := by
  cases h : findJob s r with
  | none => rw [writeDone_idle h]
  | some j => rw [(agree_writeDone h ok).agenda_eq, jobEnded_agenda]

theorem exec_windowWriteDone (hquiet : Quiet s) (r : WinRec) (ok : Bool) :
    exec (.windowWriteDone r ok) s = .next (finish s (writeDone r ok s)) :=
  event_quiet ((writeDone_agenda r ok s).trans hquiet)

/-- A completed write changes host memory in the bytes of its parts only. -/
theorem readByte_writeDone {x : Nat} (r : WinRec) (ok : Bool) (h : ∀ j, findJob s r = some j → covers j.parts x = false) :
    readByte (writeDone r ok s).window x = readByte s.window x := by
  cases hjob : findJob s r with
  | none => rw [writeDone_idle hjob]
  | some j =>
    rw [(agree_writeDone hjob ok).window_eq, jobEnded_window]
    split
    · exact readParts_other _ _ _ (h j hjob)
    · rfl

/-- Settles O9: the completion by `writeDone_job`, the write that begins by its record, one outside the window dropped. -/
theorem aWriteThatCompletesReachesMemory : Obligations.AWriteThatCompletesReachesMemory := by
  unfold Obligations.AWriteThatCompletesReachesMemory
  refine ⟨fun r ok j s hquiet hjob => ?completed, fun r cs l s _ hhold hl hjob hdeferred htables => ?begun,
    fun r ok s t hquiet hexec a hcovers => ?frame⟩
  case completed =>
    intro s1 s2 s3
    rw [exec_windowWriteDone hquiet, writeDone_job hjob]
    rfl
  case begun =>
    intro t carried told at_
    have ht : t = beginWrite r cs s := schedule_begins cs hhold hdeferred hjob
    have hcarried : carried = writeCauses s r cs := by cases r <;> rfl
    have htold : told = clearDue r s := by cases r <;> rfl
    simp only [List.all_cons, List.all_nil, Bool.and_true, Bool.and_eq_true] at htables
    obtain ⟨⟨hvehicles, hzones, hshelves⟩, hslots⟩ := htables
    refine ⟨fun hin => ⟨agree_schedule r cs s, ?errorDue, ?slotDue, ?job⟩, fun hout => ?dropped⟩
    case errorDue => rw [ht, htold, beginWrite_inside hl cs hin]; simp
    case slotDue => rw [ht, htold, beginWrite_slotDue hl cs hin]
    case dropped => rw [ht, beginWrite_outside r cs hl hout, htold, hcarried]; rfl
    case job =>
      refine ⟨jobOf s (recordOffset l r) r (writeCauses s r cs), findJob_self (ht ▸ beginWrite_jobs hl cs hin) hjob,
        rfl, hcarried.symm, ?mirrorParts, ?slotParts⟩
      case mirrorParts =>
        intro hr n
        have hrevs : RevisionsWf (clearDue r s) := by cases r <;> exact ⟨hvehicles, hzones, hshelves⟩
        have hbump : revisionOf t r = revisionOf (bumpRevision r (clearDue r s)) r := by
          rw [ht, beginWrite_inside hl cs hin]; cases r <;> rfl
        refine ⟨by rw [hbump, revisionOf_bumpRevision hrevs hr, revisionOf_clearDue], ?_⟩
        rw [jobOf, partsOf_mirror hr, List.map_append, List.map_append]
        rfl
      case slotParts =>
        rintro k rfl d
        refine ⟨?owed, fun f hf => ?final, fun o hd ho => ?live⟩
        case owed =>
          have hcleared : slotDueAt t k = slotDueAt (clearDue (.slot k) s) k := by
            rw [slotDueAt, ht, beginWrite_slotDue hl cs hin]; rfl
          rw [hcleared]
          exact tget_tset_same _ k _ hslots
        case final => rw [jobOf, partsOf, slotParts_final hf, List.map_append]; rfl
        case live => rw [jobOf, partsOf, slotParts_live hd ho, List.map_append]; split <;> rfl
  case frame =>
    rw [exec_windowWriteDone hquiet] at hexec
    cases hexec
    rw [finish, (agree_finishWith _ _ _).window_eq]
    exact readByte_writeDone r ok hcovers

/-! ### HOLD -/

theorem resumeDeferred_of {rest : List (WinRec × Causes)} (hhold : s.win.hold = false) (hrest : s.win.deferred = rest) :
    resumeDeferred s = beginDeferred rest s := by rw [resumeDeferred, hhold, hrest]; rfl

@[simp] theorem holdClear_agenda (s : State) : (holdClear s).agenda = s.agenda := by
  rw [holdClear]
  split
  · exact (agree_resumeDeferred _).agenda_eq
  · rfl

section
variable {cs : Causes} {rest : List (WinRec × Causes)}

/-- The state in which the first deferred write is made. -/
def firstOff (rest : List (WinRec × Causes)) (s : State) : State := { s with win := { s.win with deferred := rest } }

theorem beginDeferred_cons (r : WinRec) (cs : Causes) (rest : List (WinRec × Causes)) (s : State) :
    beginDeferred ((r, cs) :: rest) s =
      if (findJob s r).isSome then
        beginDeferred rest { firstOff rest s with win := { (firstOff rest s).win with jobs := markAgain r cs s.win.jobs } }
      else if (findJob (beginWrite r cs (firstOff rest s)) r).isSome then beginWrite r cs (firstOff rest s)
      else beginDeferred rest (beginWrite r cs (firstOff rest s)) := by
  rw [beginDeferred]; rfl

/-- A deferred write of a record with a write in progress comes behind it; the next deferred write is made (10 R194). -/
theorem resumeDeferred_behind (hhold : s.win.hold = false) (hd : s.win.deferred = (r, cs) :: rest)
    (hjob : (findJob s r).isSome = true) : resumeDeferred s =
      resumeDeferred { firstOff rest s with win := { (firstOff rest s).win with jobs := markAgain r cs s.win.jobs } } := by
  rw [resumeDeferred_of hhold hd, beginDeferred_cons, if_pos hjob]
  exact (resumeDeferred_of (s := { firstOff rest s with
    win := { (firstOff rest s).win with jobs := markAgain r cs s.win.jobs } }) hhold rfl).symm

/-- A deferred write outside the window is dropped; the next is made (10 R185, R194). -/
theorem resumeDeferred_dropped (hhold : s.win.hold = false) (hl : s.win.layout = some l) (hd : s.win.deferred = (r, cs) :: rest)
    (hjob : findJob s r = none) (hout : accessOk s (recordOffset l r) (recordSize r) = false) :
    resumeDeferred s = resumeDeferred (beginWrite r cs (firstOff rest s)) := by
  obtain ⟨hjobs, hdeferred⟩ := beginWrite_dropped (s := firstOff rest s) hl cs hout
  have hdropped : findJob (beginWrite r cs (firstOff rest s)) r = none := by rw [findJob, hjobs]; exact hjob
  have hhold' : (beginWrite r cs (firstOff rest s)).win.hold = false := (agree_beginWrite r cs _).hold_eq.trans hhold
  rw [resumeDeferred_of hhold hd, beginDeferred_cons, hjob, hdropped]
  exact (resumeDeferred_of hhold' hdeferred).symm

/-- Any other deferred write begins; the rest stay deferred (10 R194; log 11). -/
theorem resumeDeferred_begins (hhold : s.win.hold = false) (hl : s.win.layout = some l) (hd : s.win.deferred = (r, cs) :: rest)
    (hjob : findJob s r = none) (hin : accessOk s (recordOffset l r) (recordSize r) = true) :
    resumeDeferred s = beginWrite r cs (firstOff rest s) := by
  have hbegun := findJob_self (beginWrite_jobs (s := firstOff rest s) hl cs hin) hjob
  rw [resumeDeferred_of hhold hd, beginDeferred_cons, hjob, hbegun]
  rfl

end

/-! ### An event that writes nothing more -/

/-- Of an act that changes no block, a slot's write falls due only where the slot comes to owe something new. -/
theorem dues_of_blocks (h : blocks b = blocks a) (hslot : ∀ k, slotDueAt b k ≠ {} → slotDueAt b k = slotDueAt a k) :
    dues a b = [] := by
  have hkeys {α : Type} [DecidableEq α] (d : α) (t : Table α) : changedKeys d t t = [] := if_pos rfl
  simp only [blocks, State.mk.injEq, true_and] at h
  obtain ⟨-, -, -, -, -, -, hmap, -, horders, -, hflt, hzones, harbiters, -, hbuf⟩ := h
  have hlive (k : Nat) : liveAt b k = liveAt a k := by rw [liveAt, horders]; rfl
  have hsame (k : Nat) : slotChanged a b k = false := by
    have howed : slotDueAt b k = {} ∨ slotDueAt a k = slotDueAt b k := (em _).imp_right fun h => (hslot k h).symm
    rw [slotChanged, hlive]
    rcases howed with h | h <;> cases liveAt a k <;> simp [h]
  have hcommitted : committed b = committed a := by rw [committed, hmap]; rfl
  simp [dues, slotDues, hsame, vehicleDues, trackDues, hcommitted, zoneDues, shelfDues, arbiterZones, statusDues, occupancyChanged,
    hflt, hzones, harbiters, hbuf, hmap, hkeys, uniq, sortNat]

/-- An event in RUNNING that has nothing fall due and logs nothing leaves what its effect left. -/
theorem finish_still (ha : a.win.engine = .running) (hb : b.win.engine = .running) (hdues : dues a b = [])
    (hlog : b.win.log = a.win.log) : finish a b = b := by
  rw [finish, hdues, finishWith, if_neg (not_not.2 hb), if_neg (not_not.2 ha)]
  exact settleLog_same 4 hlog

/-- Settles O16: the read and the write of HOLD, the three things that become of the first deferred write, and the event in
which it begins, in which nothing more falls due. -/
theorem holdIsSetByAReadAndClearedByAWrite : Obligations.HoldIsSetByAReadAndClearedByAWrite := by
  unfold Obligations.HoldIsSetByAReadAndClearedByAWrite
  have hwrite (w : BitVec 64) {s : State} (hquiet : Quiet s) : exec (.holdClear w) s = .next (finish s (holdClear s)) :=
    event_quiet ((holdClear_agenda s).trans hquiet)
  refine ⟨fun s hquiet => event_quiet (f := holdRead) hquiet, fun w s => hwrite w, fun s h => ?kept,
    fun r cs rest l s hhold hl hd => ?next, fun w r cs rest s l hquiet _ hrun hhold hl hd hslots hjob hin => ?begins⟩
  case kept =>
    rw [resumeDeferred]
    split
    · rfl
    next hhold => rw [h.resolve_left hhold]; rfl
  case next =>
    intro s0 carried told
    have hcarried : carried = writeCauses s0 r cs := by cases r <;> rfl
    have htold : told = clearDue r s0 := by cases r <;> rfl
    refine ⟨fun j hj => resumeDeferred_behind hhold hd (by rw [hj]; rfl), fun hj hout => ?_,
      fun hj hin => resumeDeferred_begins hhold hl hd hj hin⟩
    rw [resumeDeferred_dropped hhold hl hd hj hout, beginWrite_outside r cs (s := firstOff rest s) hl hout, htold, hcarried]
    rfl
  case begins =>
    let s1 : State := firstOff rest { s with win := { s.win with hold := false } }
    let b : State := beginWrite r cs s1
    have heffect : holdClear s = b := by
      rw [holdClear, if_pos hhold]
      exact resumeDeferred_begins (s := { s with win := { s.win with hold := false } }) rfl hl hd hjob hin
    have hl1 : s1.win.layout = some l := hl
    have hin1 : accessOk s1 (recordOffset l r) (recordSize r) = true := hin
    have hb : b = _ := beginWrite_inside hl1 cs hin1
    have hjobs : b.win.jobs = s.win.jobs ++ [(r, jobOf s1 (recordOffset l r) r (writeCauses s1 r cs))] := beginWrite_jobs hl1 cs hin1
    have hagree : Agree b { s with win := { s.win with hold := false } } := (agree_beginWrite r cs s1).trans ⟨rfl, rfl⟩
    have howed : b.win.slotDue = (clearDue r s1).win.slotDue := beginWrite_slotDue hl1 cs hin1
    have hdues : dues s b = [] := dues_of_blocks hagree.1 fun k hk => by
      rw [slotDueAt, howed] at hk ⊢
      exact slotDueAt_clearDue (s := s1) hslots hk
    have hlog : b.win.log = s.win.log := by rw [hb]; simp; rfl
    have hstill : finish s b = b := finish_still hrun (hagree.engine_eq.trans hrun) hdues hlog
    rw [hwrite w hquiet, heffect, hstill]
    refine ⟨b, rfl, hagree, ⟨_, findJob_self hjobs hjob, rfl, ?carried⟩,
      fun q hq => findJob_other hjobs hq, ?rest, hlog, ?cause, ?out⟩
    case carried => cases r <;> rfl
    case rest => rw [hb]; simp; rfl
    case cause => rw [hb]; simp; rfl
    case out => rw [hb]; simp; rfl

end Sys2Proof.Machine
end

section
/-! The header read, its checks, and the full write as the engine enters RUNNING (10 R186, R187). -/

namespace Sys2Proof.Machine

variable {s t : State} {r : WinRec} {l : Layout}

/-! ### The checks -/

/-- The engine enters RUNNING with a layout recorded (10 R186, R187). -/
def entered (l : Layout) (s : State) : State :=
  { s with win := { s.win with engine := .running, layoutCheck := 0, headerRead := false, layout := some l } }

theorem headerDone_invalid (hread : s.win.headerRead = true) (h : registersValid s = false) (x : ReadResult) :
    headerDone x s = layoutFails 1 s := by
  rw [headerDone, hread, if_neg Bool.noConfusion, h]
  cases windowSize s <;> rfl

theorem headerDone_valid (hread : s.win.headerRead = true) (h : registersValid s = true) (x : ReadResult) :
    headerDone x s = match x with
      | .error => layoutFails 2 s
      | .data bs =>
        let n := layoutCheckOf ((windowSize s).getD 0) (parseHeader bs).1 (parseHeader bs).2
        if n ≠ 0 then layoutFails n s
        else entered (parseHeader bs).2 s := by
  have hsize : (windowSize s).isSome = true := by
    rw [registersValid, Bool.and_eq_true] at h
    exact h.1
  obtain ⟨size, hsize⟩ := Option.isSome_iff_exists.1 hsize
  rw [headerDone, hread, if_neg Bool.noConfusion, hsize, h]
  cases x <;> rfl

/-- A failed check stops the engine, so nothing falls due (10 R186). -/
theorem exec_header_fails {x : ReadResult} {n : Nat} (hquiet : Quiet s) (h : headerDone x s = layoutFails n s) :
    exec (.startHeaderReadDone x) s = .next (layoutFails n s) := by
  have hevent : event (headerDone x) s = .next (finish s (headerDone x s)) :=
    event_quiet (by rw [h]; exact (logError_agenda ..).trans hquiet)
  have hstopped : (layoutFails n s).win.engine = .layoutFault := (agree_logError ..).engine_eq
  refine hevent.trans ?_
  rw [h, finish_stopped (by rw [hstopped]; exact Engine.noConfusion)]

/-- As the engine enters RUNNING the full write is made (10 R187). -/
theorem finish_entering (hs : s.win.engine ≠ .running) (ht : t.win.engine = .running) (hl : t.win.layout = some l) :
    finish s t = settleLog 4 t.win.log (fullWrite l t) := by
  rw [finish, finishWith, if_neg (not_not.2 ht), if_pos hs, hl]

/-! ### The full write, deferred or begun -/

theorem mem_allRecords : r ∈ allRecords ↔
    (∃ v < 256, r = .vehicle v) ∨ (∃ z < 1024, r = .zone z) ∨ (∃ st < 4096, r = .shelf st) ∨ r = .status := by
  simp only [allRecords, List.mem_append, List.mem_map, List.mem_range, List.mem_singleton, Config.vehicleCount, Config.zoneCount,
    Config.stationCount, eq_comm (b := r), or_assoc]

@[simp] theorem deferring_log (ds : List (WinRec × Causes)) (s : State) : (deferring ds s).win.log = s.win.log := rfl

theorem fullWrite_held (h : s.win.hold = true) (l : Layout) :
    fullWrite l s = deferring (allRecords.map (fun r => (r, noCauses))) s := by
  rw [fullWrite, h, Bool.true_or, if_pos rfl, scheduleAll_held h]

theorem fullWrite_begun (hhold : s.win.hold = false) (hrange : rangeEnable s = true) (l : Layout) : fullWrite l s =
    { s with win := { s.win with
        jobs := s.win.jobs ++ allRecords.map (fun r => (r, jobOf s (recordOffset l r) r {})),
        vehicleRev := bumpAll Config.vehicleCount s.win.vehicleRev, zoneRev := bumpAll Config.zoneCount s.win.zoneRev,
        shelfRev := bumpAll Config.stationCount s.win.shelfRev, statusRev := s.win.statusRev + 2 } } := by
  rw [fullWrite, hhold, hrange]; rfl

theorem fullWrite_log (h : s.win.hold = true ∨ rangeEnable s = true) (l : Layout) : (fullWrite l s).win.log = s.win.log := by
  by_cases hhold : s.win.hold = true
  · rw [fullWrite_held hhold, deferring_log]
  · rw [fullWrite_begun (by simpa using hhold) (h.resolve_left hhold)]

theorem revisionOf_begun (hhold : s.win.hold = false) (hrange : rangeEnable s = true) (l : Layout) (hr : r ∈ allRecords) :
    revisionOf (fullWrite l s) r = revisionOf s r + 2 := by
  have hvehicles : (fullWrite l s).win.vehicleRev = bumpAll Config.vehicleCount s.win.vehicleRev := by
    rw [fullWrite_begun hhold hrange]
  have hzones : (fullWrite l s).win.zoneRev = bumpAll Config.zoneCount s.win.zoneRev := by rw [fullWrite_begun hhold hrange]
  have hshelves : (fullWrite l s).win.shelfRev = bumpAll Config.stationCount s.win.shelfRev := by
    rw [fullWrite_begun hhold hrange]
  rw [mem_allRecords] at hr
  rcases hr with ⟨v, hv, rfl⟩ | ⟨z, hz, rfl⟩ | ⟨st, hst, rfl⟩ | rfl
  · rw [revisionOf, hvehicles, tget_bumpAll Config.vehicleCount _ v hv]; rfl
  · rw [revisionOf, hzones, tget_bumpAll Config.zoneCount _ z hz]; rfl
  · rw [revisionOf, hshelves, tget_bumpAll Config.stationCount _ st hst]; rfl
  · rw [revisionOf, fullWrite_begun hhold hrange]; rfl

/-- Writes without a cause that fall due under HOLD leave each of their records with one deferred write, the causes of those
that waited already kept (10 R193). -/
theorem deferAll_noCauses (rs : List WinRec) (q : List (WinRec × Causes)) :
    ∃ new, (rs.map (fun r => (r, noCauses))).foldl (fun l p => defer p.1 p.2 l) q = q ++ new ∧
      (∀ p ∈ new, p.2 = {} ∧ p.1 ∈ rs ∧ ∀ x ∈ q, x.1 ≠ p.1) ∧ ∀ r ∈ rs, ∃ p ∈ q ++ new, p.1 = r := by
  induction rs generalizing q with
  | nil => exact ⟨[], (List.append_nil q).symm, by simp, by simp⟩
  | cons r rs ih =>
    obtain ⟨new₁, hdefer, hnew₁, hr⟩ := defer_noCauses r q
    obtain ⟨new₂, hrest, hnew₂, hrs⟩ := ih (q ++ new₁)
    refine ⟨new₁ ++ new₂, ?_, fun p hp => ?_, fun x hx => ?_⟩
    · rw [List.map_cons, List.foldl_cons, ← List.append_assoc, ← hrest, ← hdefer]; rfl
    · rcases List.mem_append.1 hp with hp | hp
      · obtain ⟨rfl, hother⟩ := hnew₁ p hp
        exact ⟨rfl, List.mem_cons_self, hother⟩
      · obtain ⟨hnone, hmem, hother⟩ := hnew₂ p hp
        exact ⟨hnone, List.mem_cons_of_mem _ hmem, fun x hx => hother x (List.mem_append_left _ hx)⟩
    · rw [← List.append_assoc]
      rcases List.mem_cons.1 hx with rfl | hx
      · obtain ⟨p, hp, hrec⟩ := hr
        exact ⟨p, List.mem_append_left _ hp, hrec⟩
      · exact hrs x hx

/-! ### The full write without the range enable -/

/-- The engine runs with the range enable clear, nothing waits and nothing is in progress: every write is dropped. -/
structure Cut (l : Layout) (s : State) : Prop where
  layout : s.win.layout = some l
  engine : s.win.engine = .running
  hold : s.win.hold = false
  range : rangeEnable s = false
  jobs : s.win.jobs = []
  deferred : s.win.deferred = []

/-- The log with MORE set and CE cleared, as a full log is left by a further error (10 R198). -/
def withMore (s : State) : State :=
  { s with win := { s.win with ce := false, log := s.win.log.map (fun r => { r with more := true }) } }

theorem withMore_withMore (s : State) : withMore (withMore s) = withMore s := by
  simp [withMore, Function.comp_def]

theorem withMore_raiseCause (c : Cause) (s : State) : withMore (raiseCause c s) = raiseCause c (withMore s) := by
  rw [raiseCause_eq, raiseCause_eq]; rfl

theorem Cut.withMore (h : Cut l s) : Cut l (withMore s) := { h with }
theorem Cut.clearDue (h : Cut l s) (r : WinRec) : Cut l (clearDue r s) := by cases r <;> exact { h with }
theorem Cut.raiseCause (h : Cut l s) (c : Cause) : Cut l (raiseCause c s) := by rw [raiseCause_eq]; exact { h with }
theorem Cut.logFault (h : Cut l s) (cause off : Nat) : Cut l (logFault cause off s) := by
  obtain ⟨r, e, p, o, hlogged⟩ := logError_eq .windowFault (faultDetail cause off) s
  rw [Machine.logFault, hlogged]
  exact { h with }

theorem logFault_full (h : s.win.log.isSome = true) (cause off : Nat) : logFault cause off s = withMore s := by
  obtain ⟨r, hr⟩ := Option.isSome_iff_exists.1 h
  rw [logFault, logError_full hr, withMore, hr]
  rfl

theorem Cut.schedule (h : Cut l s) (r : WinRec) (cs : Causes) :
    schedule r cs s = raiseCauses (writeCauses s r cs) (Machine.logFault 5 (recordOffset l r) (Machine.clearDue r s)) := by
  have hout : accessOk s (recordOffset l r) (recordSize r) = false := by simp [accessOk, inWindow, h.range]
  rw [schedule_begins cs h.hold (by simp [h.deferred]) (by simp [findJob, h.jobs]), beginWrite_outside r cs h.layout hout]

/-- A record of the three mirrors. -/
def isMirror : WinRec → Bool
  | .vehicle _ | .zone _ | .shelf _ => true
  | .slot _ | .status => false

theorem Cut.schedule_mirror (h : Cut l s) (hr : isMirror r = true) :
    Machine.schedule r noCauses s = Machine.logFault 5 (recordOffset l r) s := by
  rw [h.schedule]
  cases r with
  | slot | status => exact absurd hr Bool.false_ne_true
  | vehicle | zone | shelf => rfl

/-- Of a full log every further dropped write of a mirror record sets MORE. -/
theorem Cut.scheduleAll_mirror (h : Cut l s) (hlog : s.win.log.isSome = true) {rs : List WinRec} (hrs : ∀ r ∈ rs, isMirror r = true) :
    scheduleAll (rs.map (fun r => (r, noCauses))) s = s ∨ scheduleAll (rs.map (fun r => (r, noCauses))) s = Machine.withMore s := by
  induction rs generalizing s with
  | nil => exact .inl rfl
  | cons r rs ih =>
    have hfirst : Machine.schedule r noCauses s = Machine.withMore s := by
      rw [h.schedule_mirror (hrs r List.mem_cons_self), logFault_full hlog]
    have hrest := ih h.withMore (by simpa [Machine.withMore] using hlog) (fun x hx => hrs x (List.mem_cons_of_mem _ hx))
    rw [withMore_withMore, or_self] at hrest
    refine .inr (Eq.trans ?_ hrest)
    rw [← hfirst]
    rfl

/-- The status block's dropped write raises ERROR where it was to carry a newly filled record (10 R196). -/
theorem Cut.schedule_status (h : Cut l s) (hlog : s.win.log.isSome = true) : Machine.schedule .status noCauses s =
    raiseCauses { error := s.win.errorDue } (Machine.withMore (Machine.clearDue .status s)) := by
  rw [h.schedule, logFault_full (s := Machine.clearDue .status s) hlog, writeCauses, hlog, Bool.and_true]

/-- The log as it has settled: MORE set, CE clear, no record still to be carried. -/
theorem Cut.settleLog (h : Cut l s) (hlog : s.win.log.isSome = true) (hmore : Machine.withMore s = s)
    (hdue : s.win.errorDue = false) (n : Nat) (old : Option LogRecord) : settleLog n old s = s := by
  have hclear : Machine.clearDue .status s = s := by
    have hsame : ({ s with win := { s.win with errorDue := s.win.errorDue } } : State) = s := rfl
    rwa [hdue] at hsame
  have hagain : Machine.schedule .status noCauses s = s := by
    rw [h.schedule_status hlog, hdue, hclear, hmore]; rfl
  cases n with
  | zero => rfl
  | succ n =>
    rw [Machine.settleLog, hagain]
    split
    · rfl
    · exact settleLog_same n rfl

/-- The full write in its order: the first vehicle's record, the other mirror records, the status block. -/
theorem allRecords_eq : ∃ rest, allRecords = .vehicle 0 :: (rest ++ [.status]) ∧ ∀ r ∈ rest, isMirror r = true := by
  refine ⟨((List.range 255).map Nat.succ).map .vehicle ++ (List.range Config.zoneCount).map .zone ++
    (List.range Config.stationCount).map .shelf, ?_, fun r hr => ?_⟩
  · rw [allRecords, show Config.vehicleCount = 255 + 1 from rfl, List.range_succ_eq_map]
    simp
  · simp only [List.mem_append, List.mem_map] at hr
    rcases hr with (⟨v, -, rfl⟩ | ⟨z, -, rfl⟩) | ⟨st, -, rfl⟩ <;> rfl

theorem Cut.fullWrite (h : Cut l s) (ht : t = Machine.logFault 5 l.vehicleMirror s) : fullWrite l s =
    raiseCauses { error := t.win.errorDue } (Machine.withMore (Machine.clearDue .status t)) := by
  obtain ⟨rest, hall, hrest⟩ := allRecords_eq
  have hcut : Cut l t := ht ▸ h.logFault 5 _
  have hlog : t.win.log.isSome = true := by
    obtain ⟨r, e, p, o, hlogged⟩ := logError_eq .windowFault (faultDetail 5 l.vehicleMirror) s
    rw [ht, Machine.logFault, hlogged]; rfl
  have hfirst : Machine.schedule (.vehicle 0) noCauses s = t := (h.schedule_mirror rfl).trans ht.symm
  have hwrite : Machine.fullWrite l s =
      Machine.schedule .status noCauses (scheduleAll (rest.map (fun r => (r, noCauses))) t) := by
    rw [Machine.fullWrite, h.range, Bool.not_false, Bool.or_true, if_pos rfl, hall, ← hfirst]
    simp [scheduleAll]
  rw [hwrite]
  rcases hcut.scheduleAll_mirror hlog hrest with hu | hu
  · rw [hu, hcut.schedule_status hlog]
  · have hlog' : (Machine.withMore t).win.log.isSome = true := by simpa [Machine.withMore] using hlog
    rw [hu, hcut.withMore.schedule_status hlog']
    exact congrArg _ (withMore_withMore (Machine.clearDue .status t))

/-! ### The statement -/

/-- The log that the full write leaves with the range enable clear (10 R185, R198). -/
def cutLog (l : Layout) (s : State) : State :=
  { s with win := { s.win with ce := false, errorDue := false, log := some (match s.win.log with
    | none => { kind := .windowFault, detail := faultDetail 5 l.vehicleMirror, time := s.clock, more := true }
    | some r => { r with more := true }) } }

theorem withMore_cutLog (l : Layout) (s : State) : withMore (cutLog l s) = cutLog l s := by
  simp only [withMore, cutLog]
  cases s.win.log <;> rfl

theorem Cut.cutLog (h : Cut l s) : Cut l (cutLog l s) := { h with }

/-- The first dropped write fills an empty log, whose record the status block would have carried. -/
theorem Cut.settled (h : Cut l s) (hdue : s.win.errorDue = false) : Machine.settleLog 4 s.win.log (Machine.fullWrite l s) =
    if s.win.log = none then Machine.raiseCause .error (Machine.cutLog l s) else Machine.cutLog l s := by
  cases hlog : s.win.log with
  | none =>
    have hfull : Machine.fullWrite l s = Machine.raiseCause .error (Machine.cutLog l s) := by
      rw [h.fullWrite (logError_running hlog h.engine .windowFault (faultDetail 5 l.vehicleMirror)).symm, Machine.cutLog, hlog]
      rfl
    rw [hfull, if_pos rfl]
    exact (h.cutLog.raiseCause .error).settleLog (by rw [raiseCause_eq]; rfl) (by rw [withMore_raiseCause, withMore_cutLog])
      (by rw [raiseCause_eq]; rfl) 4 _
  | some r =>
    have hfull : Machine.fullWrite l s = Machine.cutLog l s := by
      rw [h.fullWrite (logError_full hlog .windowFault (faultDetail 5 l.vehicleMirror)).symm, Machine.cutLog, hlog, hdue]
      rfl
    rw [hfull, if_neg (by simp)]
    exact h.cutLog.settleLog rfl (withMore_cutLog l s) rfl 4 _

theorem layoutCheckOf_eq (size version : Nat) (l : Layout) : layoutCheckOf size version l =
    if version ≠ 1 then 3
    else if l.n % 32 ≠ 0 ∨ l.n < 32 ∨ 1024 < l.n then 4
    else if (∃ a ∈ areas l, a.1 % 64 ≠ 0) ∨ l.stagingSize % 64 ≠ 0 then 5
    else if (∃ a ∈ areas l, size < a.1 + a.2) then 6
    else if anyOverlap ((0, 64) :: areas l) = true then 7
    else 0 := by
  have halign : ((areas l).any (fun a => !decide (a.1 % 64 = 0)) || !decide (l.stagingSize % 64 = 0)) = true ↔
      (∃ a ∈ areas l, a.1 % 64 ≠ 0) ∨ l.stagingSize % 64 ≠ 0 := by simp
  have hfits : (areas l).any (fun a => decide (size < a.1 + a.2)) = true ↔ ∃ a ∈ areas l, size < a.1 + a.2 := by simp
  exact if_congr Iff.rfl rfl (if_congr Iff.rfl rfl (if_congr halign rfl (if_congr hfits rfl rfl)))

/-- Settles O13: the checks in their order, then the full write dropped, deferred or begun. -/
theorem theHeaderIsCheckedInOrder : Obligations.TheHeaderIsCheckedInOrder := by
  unfold Obligations.TheHeaderIsCheckedInOrder
  refine ⟨fun x s hquiet hstopped hread => ?checked, fun l s hl hrun hhold hrange hjobs hdeferred hdue => ?cut, fun l s hl => ?full⟩
  case checked =>
    intro fails
    have hfails (n : Nat) (hn : n ≤ 7) : layoutFails n s = fails n := by rw [layoutFails, faultDetail_check hn]
    have hfailed (n : Nat) (hn : n ≤ 7) (h : headerDone x s = layoutFails n s) : exec (.startHeaderReadDone x) s = .next (fails n) := by
      rw [exec_header_fails hquiet h, hfails n hn]
    cases hvalid : registersValid s with
    | false => exact hfailed 1 (by decide) (headerDone_invalid hread hvalid x)
    | true =>
      have hdone := headerDone_valid hread hvalid x
      cases x with
      | error => exact hfailed 2 (by decide) hdone
      | data bs =>
        rw [if_neg Bool.noConfusion]
        dsimp only at hdone ⊢
        rw [← layoutCheckOf_eq]
        by_cases hcheck : layoutCheckOf ((windowSize s).getD 0) (parseHeader bs).1 (parseHeader bs).2 = 0
        · rw [if_neg (not_not.2 hcheck)] at hdone ⊢
          have hevent := event_quiet (f := headerDone (.data bs)) (s := s) (by rw [hdone]; exact hquiet)
          rw [hdone, finish_entering hstopped rfl rfl] at hevent
          refine hevent.trans (congrArg _ ?_)
          split
          next hkept => exact settleLog_same 4 (fullWrite_log (s := entered _ s) hkept _)
          next => rfl
        · rw [if_pos hcheck] at hdone ⊢
          exact hfailed _ (layoutCheckOf_le _ _ _) hdone
  case cut =>
    intro t
    have ht : t = cutLog l s := by simp only [t, cutLog, hdue]; rfl
    rw [ht]
    exact Cut.settled ⟨hl, hrun, hhold, hrange, hjobs, hdeferred⟩ hdue
  case full =>
    intro t full
    refine ⟨agree_fullWrite l s, fun hhold => ?deferred, fun hhold hrange => ?begun⟩
    case deferred =>
      obtain ⟨new, hdefer, hnew, hall⟩ := deferAll_noCauses allRecords s.win.deferred
      refine ⟨new, ?_, fun p hp => ?_, fun r hr => hall r (mem_allRecords.2 hr)⟩
      · rw [← hdefer]; exact fullWrite_held hhold l
      · obtain ⟨hnone, hmem, hother⟩ := hnew p hp
        exact ⟨hnone, mem_allRecords.1 hmem, hother⟩
    case begun =>
      have ht : t = _ := fullWrite_begun hhold hrange l
      refine ⟨allRecords.map (fun r => (r, jobOf s (recordOffset l r) r {})), ?_, fun p hp => ?job, fun r hr => ⟨?mem, ?revision⟩⟩
      · rw [ht]
      case job =>
        obtain ⟨r, hr, rfl⟩ := List.mem_map.1 hp
        have hfull := mem_allRecords.1 hr
        have hmirror : ∀ k, r ≠ .slot k := by
          rintro k rfl
          simp at hfull
        refine ⟨hfull, rfl, rfl, ?_⟩
        intro n at_
        rw [jobOf, partsOf_mirror hmirror, List.map_append, List.map_append]
        rfl
      case mem => exact ⟨_, List.mem_map.2 ⟨r, mem_allRecords.2 hr, rfl⟩, rfl⟩
      case revision => exact revisionOf_begun hhold hrange l (mem_allRecords.2 hr)

end Sys2Proof.Machine
end

section
/-! One step of the machine by its queue of commands (95, "What each step holds"). -/

namespace Sys2Proof.Machine

theorem step_of_front {s : State} {c : Instr} {rest : List Instr} (h : s.pending = c :: rest) :
    step s = exec c { s with pending := rest } := by
  rw [step, h]

theorem step_of_empty_queue {s : State} (h : s.pending = []) : step s = .next { s with clock := s.clock + 1 } := by
  rw [step, h]

/-- Settles O1: the two branches of `step`; the rest of the queue takes the place of the whole. -/
theorem stepRunsTheFrontCommand : Obligations.StepRunsTheFrontCommand := by
  unfold Obligations.StepRunsTheFrontCommand
  refine ⟨fun c rest s => ?front, fun s hempty => ?empty⟩
  case front =>
    have hfront : ({ s with pending := c :: rest } : State).pending = c :: rest := rfl
    exact step_of_front hfront
  case empty => exact step_of_empty_queue hempty

end Sys2Proof.Machine
end
